-- ==== Sys2Proof/Word.lean ====
section
/-! DEFINITION. The word, byte and counter types of spec/00_scope.md rule R9. Every register value is an
unsigned integer of its stated width, so each is a `BitVec`. -/

namespace Sys2Proof

/-- A 32-bit register value or command word (20_memory R51). -/
abbrev Word := BitVec 32

/-- One byte, 0 to 255 (00_scope R9). -/
abbrev Byte := BitVec 8

/-- A 64-bit unsigned time or time step (10_state R30, R32). -/
abbrev Counter := BitVec 64

/-- A byte offset into the 4096-byte register window (20_memory R50). -/
abbrev Offset := BitVec 12

end Sys2Proof
end

