-- ==== Sys2Proof/Config.lean ====
section
/-! DEFINITION. The build parameters of spec/00_scope.md rule R6 and the platform's base address of
spec/20_memory.md rule R50. -/

namespace Sys2Proof

/-- `KEY_MODE` (00_scope R6): the HMAC key is the raw secret, or the ASCII bytes of its Base32 text. -/
inductive KeyMode
  | raw
  | b32Ascii
  deriving DecidableEq, Repr

/-- `B32_PAD` (00_scope R6): Base32 text is padded with '=' to a multiple of eight characters, or not. -/
inductive B32Pad
  | pad
  | noPad
  deriving DecidableEq, Repr

/-- The two synthesis-time parameters (00_scope R6). "A model takes them as arguments": State carries
them in a field that no step changes (log 4, DESIGN CHOICE, safe). -/
structure Config where
  keyMode : KeyMode
  b32Pad  : B32Pad
  deriving DecidableEq, Repr

/-- The default build, `KEY_MODE = RAW` and `B32_PAD = PAD` (00_scope R6). -/
def Config.default : Config := { keyMode := .raw, b32Pad := .pad }

/-- `BASE`, the system address at which the window sits (20_memory R50, 93 I3): OPEN, left to the
platform. It has no body, so no proof can see its value (log 5, DESIGN CHOICE, safe). -/
opaque Platform.base : Nat

end Sys2Proof
end

