-- ==== Sys2Proof/Syntax.lean ====
section
/-! DEFINITION. The commands of spec/30_encoding.md rule R72, one constructor per row of
spec/opcode_table.json, and the fields of a command word (rule R70). -/

namespace Sys2Proof

/-- The nine legal commands (30_encoding R72, R73). A command has no operand fields in its word (R75):
its operands are the snapshot latched at issue. -/
inductive Instr
  /-- NOP, OP 0x0 (44_totp R160). -/
  | nop
  /-- LOADHEX, OP 0x1 (42_seed R115). -/
  | loadHex
  /-- LOADRAW, OP 0x2 (42_seed R116). -/
  | loadRaw
  /-- STEP, OP 0x3 (44_totp R165). -/
  | step
  /-- GEN.S, OP 0x4 with TS = 0 (44_totp R170). -/
  | genS
  /-- GEN.T, OP 0x4 with TS = 1 (44_totp R170). -/
  | genT
  /-- VER.S, OP 0x5 with TS = 0 (44_totp R172). -/
  | verS
  /-- VER.T, OP 0x5 with TS = 1 (44_totp R172). -/
  | verT
  /-- B32ENC, OP 0x6 (41_base32 R103). -/
  | b32Enc
  deriving DecidableEq, Repr

/-- The fields of a command word (30_encoding R70). -/
structure CommandFields where
  /-- bits 31:5, must be 0 -/
  rsv : BitVec 27
  /-- bit 4, the time source of GEN and VER -/
  ts  : BitVec 1
  /-- bits 3:0, the operation -/
  op  : BitVec 4
  deriving DecidableEq, Repr

/-- Why a word is an illegal command (30_encoding R74). -/
inductive IllegalWord
  /-- RSV, bits 31:5, is not 0. -/
  | reservedBits
  /-- OP is in 0x7 to 0xF. -/
  | reservedOp
  /-- TS is 1 on an operation other than GEN and VER. -/
  | timeSource
  deriving DecidableEq, Repr

end Sys2Proof
end

