-- ==== Sys2Proof/WellFormed.lean ====
section
/-! DEFINITION. Which field values are a legal command (spec/30_encoding.md rules R70, R71, R74). -/

namespace Sys2Proof

/-- RSV "must be 0" (30_encoding R70). -/
def CommandFields.rsvOk (f : CommandFields) : Bool := f.rsv == 0

/-- OP names an operation; 0x7 to 0xF are reserved (30_encoding R72). -/
def CommandFields.opOk (f : CommandFields) : Bool := decide (f.op.toNat ≤ 6)

/-- TS "must be 0 for every other OP" than GEN and VER (30_encoding R70, R71). -/
def CommandFields.tsOk (f : CommandFields) : Bool := f.ts == 0 || f.op == 4 || f.op == 5

/-- The fields form a legal command (30_encoding R74). -/
def CommandFields.wellFormed (f : CommandFields) : Bool := f.rsvOk && f.opOk && f.tsOk

/-- The OP and TS of a command (30_encoding R72). -/
def Instr.fields : Instr → CommandFields
  | .nop     => { rsv := 0, ts := 0, op := 0x0 }
  | .loadHex => { rsv := 0, ts := 0, op := 0x1 }
  | .loadRaw => { rsv := 0, ts := 0, op := 0x2 }
  | .step    => { rsv := 0, ts := 0, op := 0x3 }
  | .genS    => { rsv := 0, ts := 0, op := 0x4 }
  | .genT    => { rsv := 0, ts := 1, op := 0x4 }
  | .verS    => { rsv := 0, ts := 0, op := 0x5 }
  | .verT    => { rsv := 0, ts := 1, op := 0x5 }
  | .b32Enc  => { rsv := 0, ts := 0, op := 0x6 }

/-- An instruction is well formed when its fields are. Instr has no operands, so every one is. -/
def Instr.wellFormed (i : Instr) : Bool := i.fields.wellFormed

end Sys2Proof
end

