-- ==== Sys2Proof/Decode.lean ====
section
/-! DEFINITION. Decoding and encoding of command words (spec/30_encoding.md rules R70 to R74). -/

namespace Sys2Proof

/-- The fields of a 32-bit command word (30_encoding R70). -/
def CommandFields.ofWord (v : Word) : CommandFields :=
  { rsv := v.extractLsb' 5 27, ts := v.extractLsb' 4 1, op := v.extractLsb' 0 4 }

/-- The word that has the given fields (30_encoding R70). -/
def CommandFields.toWord (f : CommandFields) : Word := f.rsv ++ f.ts ++ f.op

/-- An operation that takes no time source is legal only with TS = 0 (30_encoding R73). -/
def withoutTimeSource (ts : BitVec 1) (i : Instr) : Except IllegalWord Instr :=
  if ts = 0 then .ok i else .error .timeSource

/-- `Decode` on the fields of a word (30_encoding R73). An error is the spec's ILLEGAL, with the reason
it is one. -/
def decodeFields (f : CommandFields) : Except IllegalWord Instr :=
  if f.rsv ≠ 0 then .error .reservedBits
  else match f.op.toNat with
    | 0x0 => withoutTimeSource f.ts .nop
    | 0x1 => withoutTimeSource f.ts .loadHex
    | 0x2 => withoutTimeSource f.ts .loadRaw
    | 0x3 => withoutTimeSource f.ts .step
    | 0x4 => .ok (if f.ts = 1 then .genT else .genS)
    | 0x5 => .ok (if f.ts = 1 then .verT else .verS)
    | 0x6 => withoutTimeSource f.ts .b32Enc
    | _   => .error .reservedOp

/-- `Decode(v)` (30_encoding R73), total on 32-bit words. -/
def decode (v : Word) : Except IllegalWord Instr := decodeFields (CommandFields.ofWord v)

/-- The word of a command, from the opcode map (30_encoding R72). -/
def encode (i : Instr) : Word := i.fields.toWord

/-- The instruction the decoder reads from an instruction whose bits are `w`, `nbits` of them, bit 0
the least significant bit of the one command word. Every bit above `nbits` is 0. A value that needs
more than 32 bits is no command word (30_encoding R70: "exactly one word long"). -/
def decodeTableWord (nbits w : Nat) : Option Instr :=
  let v := w % 2 ^ nbits
  if v < 2 ^ 32 then (decode (BitVec.ofNat 32 v)).toOption else none

end Sys2Proof
end

