-- ==== Sys2Proof/Machine/State.lean ====
section
/-! DEFINITION. The complete state of the block (spec/10_state.md rule R20), the host's side of the
model, and the reset state (spec/70_reset_and_hazards.md rule R220). -/

namespace Sys2Proof.Machine

/-- The error codes of STATUS.ERR (60_exceptions R201). Codes 6 to 15 are never produced. -/
inductive ErrCode
  /-- 0, ERR_NONE -/
  | none
  /-- 1, ERR_ILLEGAL -/
  | illegal
  /-- 2, ERR_NOT_PROVISIONED -/
  | notProvisioned
  /-- 3, ERR_VALIDATION -/
  | validation
  /-- 4, ERR_INPUT -/
  | input
  /-- 5, ERR_LENGTH -/
  | length
  deriving DecidableEq, Repr

/-- `snap`: the copies of the inputs and of the secret slot taken at issue (10_state R40). -/
structure Snapshot where
  seedValid : Bool
  secret    : Vector Byte 32
  window    : BitVec 8
  slen      : BitVec 8
  candLen   : BitVec 8
  cand      : Vector Byte 8
  timeIn    : Counter
  stepIn    : Counter
  stage     : Vector Byte 64
  deriving DecidableEq, Repr

/-- A pending command `(d, snap)` (10_state R40). -/
structure Pending where
  /-- the decoded command; none is the spec's ILLEGAL (30_encoding R73) -/
  cmd  : Option Instr
  snap : Snapshot
  deriving DecidableEq, Repr

/-- What the HOST can do in one step (00_scope R8, R10; 70_reset R220). -/
inductive HostAction
  /-- `BusRead(off)` -/
  | read (off : Offset)
  /-- `BusWrite(off, v)` -/
  | write (off : Offset) (v : Word)
  /-- `RESET` -/
  | reset
  deriving DecidableEq, Repr

/-- Whose turn it is, one entry of an interleaving (00_scope R8, 20_memory R61). -/
inductive Turn
  | host (a : HostAction)
  /-- the ENGINE's `Complete`; where no command is pending it is not enabled and the turn passes (log 2) -/
  | engine
  deriving DecidableEq, Repr

/-- The state: everything 10_state R20 lists, the build parameters, and the model's two host-side
fields. -/
structure State where
  /-- CFG, the build parameters (10_state R23); no step changes them -/
  cfg       : Config
  /-- STATUS.DONE (10_state R25) -/
  done      : Bool
  /-- STATUS.MATCH (10_state R25) -/
  matchFlag : Bool
  /-- STATUS.OVR (10_state R25) -/
  ovr       : Bool
  /-- STATUS.ERR (10_state R25) -/
  err       : ErrCode
  /-- WINDOW.W (10_state R26) -/
  window    : BitVec 8
  /-- SLEN.N (10_state R27) -/
  slen      : BitVec 8
  /-- CAND_LEN.L (10_state R28) -/
  candLen   : BitVec 8
  /-- CAND, the words CAND_LO and CAND_HI (10_state R29) -/
  cand      : Vector Byte 8
  /-- TIME, the words TIME_LO and TIME_HI (10_state R30) -/
  timeIn    : Counter
  /-- STEP, the words STEP_LO and STEP_HI (10_state R32) -/
  stepIn    : Counter
  /-- STAGE, sixteen words (10_state R31) -/
  stage     : Vector Byte 64
  /-- CODE.VALUE (10_state R33) -/
  code      : BitVec 20
  /-- CODE_A, the words CODE_A_LO and CODE_A_HI (10_state R34) -/
  codeA     : Vector Byte 6
  /-- REMAIN.SECONDS (10_state R35) -/
  remain    : BitVec 5
  /-- STEP_OUT, the words STEP_OUT_LO and STEP_OUT_HI (10_state R37) -/
  stepOut   : Counter
  /-- B32_OUT_LEN.N (10_state R38) -/
  b32OutLen : BitVec 7
  /-- B32_OUT, twenty-six words (10_state R36) -/
  b32Out    : Vector Byte 104
  /-- SECRET, hidden (10_state R39) -/
  secret    : Vector Byte 32
  /-- SEED_VALID, hidden; STATUS bit 2 reads it (10_state R39) -/
  seedValid : Bool
  /-- PENDING, hidden; STATUS.BUSY reads 1 exactly when it is not none (10_state R40) -/
  pending   : Option Pending
  /-- the model's own: the turns still to come (log 1, DESIGN CHOICE, safe) -/
  schedule  : List Turn
  /-- the model's own: the words the HOST's reads have returned, oldest first (log 3, DESIGN CHOICE,
  safe) -/
  replies   : List Word
  deriving DecidableEq, Repr

/-- One field assignment of a `finish(err, writes)` (00_scope R10, 10_state R41). These are the only
fields a command's rule writes (30_encoding R75); SEED_VALID and MATCH are only ever written 1. -/
inductive FieldWrite
  /-- SECRET <- k -/
  | secret (k : Vector Byte 32)
  /-- SEED_VALID <- 1 -/
  | seedValid
  /-- MATCH <- 1 -/
  | matchFlag
  /-- CODE.VALUE <- v -/
  | code (v : BitVec 20)
  /-- CODE_A[0..6) <- d -/
  | codeA (d : Vector Byte 6)
  /-- STEP_OUT <- c -/
  | stepOut (c : Counter)
  /-- REMAIN.SECONDS <- r -/
  | remain (r : BitVec 5)
  /-- B32_OUT[0..104) <- t -/
  | b32Out (t : Vector Byte 104)
  /-- B32_OUT_LEN.N <- n -/
  | b32OutLen (n : BitVec 7)
  deriving DecidableEq, Repr

/-- What `Execute(d, snap)` returns: the arguments of its `finish(err, writes)` (10_state R41). -/
structure Result where
  err    : ErrCode
  writes : List FieldWrite
  deriving DecidableEq, Repr

/-- Why the machine could stop with a fault: never. "No command traps, stops the block or leaves it
stuck" (60_exceptions R200), so there is no constructor. -/
inductive Fault
  deriving DecidableEq, Repr

/-- Why a step could have no meaning. -/
inductive Refusal
  /-- Raised by an arm of `exec` whose instruction has no meaning yet; safe. No arm raises it. -/
  | notModelled (mnemonic : String)
  deriving DecidableEq, Repr

/-- The state after reset of a block built with parameters `c` (70_reset R220 and the reset columns of
10_state R22 to R40), with no turn to come and no reply yet (log 1, log 3). -/
def State.resetOf (c : Config) : State :=
  { cfg := c
    done := false
    matchFlag := false
    ovr := false
    err := .none
    window := 1
    slen := 0
    candLen := 0
    cand := Vector.replicate 8 0
    timeIn := 0
    stepIn := 0
    stage := Vector.replicate 64 0
    code := 0
    codeA := Vector.replicate 6 0
    remain := 0
    stepOut := 0
    b32OutLen := 0
    b32Out := Vector.replicate 104 0
    secret := Vector.replicate 32 0
    seedValid := false
    pending := none
    schedule := []
    replies := [] }

/-- The state with the given turns still to come. -/
def State.withSchedule (s : State) (turns : List Turn) : State := { s with schedule := turns }

/-- The state after a BusRead has returned the word `w` (log 3). -/
def State.withReply (s : State) (w : Word) : State := { s with replies := s.replies ++ [w] }

/-- The state after reset of the default build (00_scope R6, 70_reset R220). -/
def State.reset : State := State.resetOf Config.default

end Sys2Proof.Machine
end

