-- ==== Sys2Proof/Machine/Flags.lean ====
section
/-! DEFINITION. The STATUS register: its flags, its error code and the write that clears OVR
(spec/10_state.md rule R25, spec/60_exceptions.md rule R201). -/

namespace Sys2Proof.Machine

/-- The 4-bit code of an error (60_exceptions R201). -/
def ErrCode.bits : ErrCode → BitVec 4
  | .none           => 0
  | .illegal        => 1
  | .notProvisioned => 2
  | .validation     => 3
  | .input          => 4
  | .length         => 5

/-- STATUS.BUSY, 1 exactly when a command is pending (10_state R25, R40). -/
def State.busy (s : State) : Bool := s.pending.isSome

/-- The word a read of STATUS returns; bits 31:12 and 7:5 are reserved and read 0 (10_state R25). -/
def statusWord (s : State) : Word :=
  (0 : BitVec 20) ++ s.err.bits ++ (0 : BitVec 3) ++ BitVec.ofBool s.ovr ++ BitVec.ofBool s.matchFlag
    ++ BitVec.ofBool s.seedValid ++ BitVec.ofBool s.done ++ BitVec.ofBool s.busy

/-- A write to STATUS: bit 4 set clears OVR, and nothing else changes (10_state R25). -/
def writeStatus (v : Word) (s : State) : State :=
  if v.getLsbD 4 then { s with ovr := false } else s

/-- The word a read of CFG returns (10_state R23). -/
def cfgWord (c : Config) : Word :=
  (0 : BitVec 30) ++ (match c.b32Pad with | .pad => 1#1 | .noPad => 0#1)
    ++ (match c.keyMode with | .raw => 0#1 | .b32Ascii => 1#1)

end Sys2Proof.Machine
end

