-- ==== Sys2Proof/Machine/Bytes.lean ====
section
/-! DEFINITION. Byte strings and byte order: `be_N` and `from_be` (spec/00_scope.md rule R9), and the
byte lanes of the register interface (spec/20_memory.md rule R54). -/

namespace Sys2Proof.Machine

/-- `be_N(x)`, the N-byte big-endian string of x (00_scope R9). -/
def be (n x : Nat) : Vector Byte n :=
  Vector.ofFn fun i => BitVec.ofNat 8 (x / 256 ^ (n - 1 - i.val))

/-- `from_be(s)`, the natural whose big-endian string is s (00_scope R9). -/
def fromBe (s : List Byte) : Nat := s.foldl (fun acc b => acc * 256 + b.toNat) 0

/-- Byte i of a buffer; a lane beyond the buffer is reserved and reads 0 (10_state R34, 20_memory R53). -/
def lane {n : Nat} (buf : Vector Byte n) (i : Nat) : Byte :=
  if h : i < n then buf[i] else 0

/-- Word k of a byte buffer, least-significant lane first (20_memory R54). -/
def bufWord {n : Nat} (buf : Vector Byte n) (k : Nat) : Word :=
  lane buf (4 * k + 3) ++ lane buf (4 * k + 2) ++ lane buf (4 * k + 1) ++ lane buf (4 * k)

/-- Byte j of a word, at bits 8j+7 down to 8j (20_memory R54). -/
def wordByte (v : Word) (j : Nat) : Byte := v.extractLsb' (8 * j) 8

/-- The buffer with word k replaced (20_memory R54). -/
def setBufWord {n : Nat} (buf : Vector Byte n) (k : Nat) (v : Word) : Vector Byte n :=
  Vector.ofFn fun i => if i.val / 4 = k then wordByte v (i.val % 4) else buf[i]

/-- The _LO word of a 64-bit value (20_memory R54). -/
def lowWord (c : Counter) : Word := c.extractLsb' 0 32

/-- The _HI word of a 64-bit value (20_memory R54). -/
def highWord (c : Counter) : Word := c.extractLsb' 32 32

/-- A 64-bit value with its _LO word replaced (20_memory R54). -/
def setLowWord (c : Counter) (v : Word) : Counter := highWord c ++ v

/-- A 64-bit value with its _HI word replaced (20_memory R54). -/
def setHighWord (c : Counter) (v : Word) : Counter := v ++ lowWord c

end Sys2Proof.Machine
end

