-- ==== Sys2Proof/Machine/Base32.lean ====
section
/-! DEFINITION. The Base32 encoder (spec/41_base32.md rules R100 and R101). -/

namespace Sys2Proof.Machine

/-- `ALPHABET[k]`, 'A' to 'Z' and '2' to '7', for k < 32 (41_base32 R100). -/
def alphabet (k : Nat) : Byte :=
  if k ≤ 25 then BitVec.ofNat 8 (0x41 + k) else BitVec.ofNat 8 (0x32 + (k - 26))

/-- The inner loop: while five bits are held, emit the five most significant and drop them. The answer
is the characters emitted, the buffer and the number of bits left (41_base32 R100). -/
def b32Drain (buf : Nat) : Nat → List Byte × Nat × Nat
  | n + 5 =>
    let rest := b32Drain (buf % 2 ^ n) n
    (alphabet ((buf >>> n) &&& 31) :: rest.1, rest.2)
  | n => ([], buf, n)

/-- The final partial group, its low bits filled with 0 (41_base32 R100). -/
def b32Final (buf nbits : Nat) : List Byte :=
  if nbits > 0 then [alphabet ((buf <<< (5 - nbits)) &&& 31)] else []

/-- The outer loop over the input bytes, with the rolling buffer and its bit count (41_base32 R100). -/
def b32Loop : List Byte → Nat → Nat → List Byte
  | [], buf, nbits => b32Final buf nbits
  | s :: rest, buf, nbits =>
    let drained := b32Drain (buf * 256 + s.toNat) (nbits + 8)
    drained.1 ++ b32Loop rest drained.2.1 drained.2.2

/-- `Pad(out, pad)`, the fewest '=' that make the length a multiple of 8 (41_base32 R101). -/
def b32Padded (out : List Byte) : B32Pad → List Byte
  | .noPad => out
  | .pad   => out ++ List.replicate ((8 - out.length % 8) % 8) 0x3D

/-- `B32(s, pad)` (41_base32 R100). -/
def b32 (s : List Byte) (convention : B32Pad) : List Byte := b32Padded (b32Loop s 0 0) convention

end Sys2Proof.Machine
end

