-- ==== Sys2Proof/Machine/Constants.lean ====
section
/-! DEFINITION. The fixed constants of the block (spec/00_scope.md rule R7) and its identification value
(spec/10_state.md rule R22). -/

namespace Sys2Proof.Machine

/-- `PERIOD`, seconds in one time step (00_scope R7). -/
def period : Nat := 30

/-- `MODULUS`, 10^DIGITS for the six digits of a code (00_scope R7). -/
def modulus : Nat := 1000000

/-- `SECRET_HEX_CHARS`, the SLEN that LOADHEX requires (00_scope R7, 42_seed R113). -/
def secretHexChars : Nat := 64

/-- `SECRET_BYTES`, the SLEN that LOADRAW requires (00_scope R7, 42_seed R116). -/
def secretBytes : Nat := 32

/-- The size of STAGE, the largest SLEN that B32ENC accepts (41_base32 R103). -/
def stageBytes : Nat := 64

/-- `DIGITS`, the CAND_LEN that VER requires (00_scope R7, 44_totp R171). -/
def digitCount : Nat := 6

/-- The value of ID, the ASCII bytes "TOTP" (10_state R22). -/
def idValue : Word := 0x544F5450

end Sys2Proof.Machine
end

