-- ==== Sys2Proof/Machine/Sha1.lean ====
section
/-! DEFINITION. SHA-1, HMAC-SHA1, dynamic truncation and HOTP (spec/43_sha1_hmac.md rules R130 to R143).
The spec transcribes these rules from the public standards; the model follows the rules as it gives them
(log 11). -/

namespace Sys2Proof.Machine

/-- `ROTL_n(x)`, for 0 < n < 32 (00_scope R9). -/
def rotl (n : Nat) (x : Word) : Word := (x <<< n) ||| (x >>> (32 - n))

/-- The five chaining values `(a, b, c, d, e)`, or `(H0, ..., H4)` (43_sha1_hmac R134, R135). -/
structure Chain where
  a : Word
  b : Word
  c : Word
  d : Word
  e : Word
  deriving DecidableEq, Repr

/-- The initial hash value (43_sha1_hmac R134). -/
def Chain.initial : Chain :=
  { a := 0x67452301, b := 0xEFCDAB89, c := 0x98BADCFE, d := 0x10325476, e := 0xC3D2E1F0 }

/-- z, the least natural with (len + 1 + z + 8) mod 64 = 0 (43_sha1_hmac R131). -/
def padZeros (len : Nat) : Nat := (64 - (len + 9) % 64) % 64

/-- The padded message M' (43_sha1_hmac R131). -/
def sha1Pad (m : List Byte) : List Byte :=
  m ++ [0x80] ++ List.replicate (padZeros m.length) 0 ++ (be 8 (8 * m.length)).toList

/-- The 64-byte blocks of a padded message (43_sha1_hmac R131). -/
def sha1Blocks (m : List Byte) : List (List Byte) :=
  (List.range (m.length / 64)).map fun j => (m.drop (64 * j)).take 64

/-- W[0] to W[15] of a block, its big-endian words (43_sha1_hmac R132). -/
def blockWords (p : List Byte) : List Word :=
  (List.range 16).map fun t => BitVec.ofNat 32 (fromBe ((p.drop (4 * t)).take 4))

/-- W[t] from the words before it, newest first: W[t-3], W[t-8], W[t-14], W[t-16] (43_sha1_hmac R132). -/
def scheduleWord (earlier : List Word) : Word :=
  rotl 1 (earlier.getD 2 0 ^^^ earlier.getD 7 0 ^^^ earlier.getD 13 0 ^^^ earlier.getD 15 0)

/-- `n` more words of the message schedule, newest first (43_sha1_hmac R132). -/
def extendSchedule : Nat → List Word → List Word
  | 0, ws => ws
  | n + 1, ws => extendSchedule n (scheduleWord ws :: ws)

/-- W[0] to W[79] (43_sha1_hmac R132). -/
def messageSchedule (p : List Byte) : List Word :=
  (extendSchedule 64 (blockWords p).reverse).reverse

/-- `Ch`, the round function of rounds 0 to 19 (43_sha1_hmac R133). -/
def ch (b c d : Word) : Word := (b &&& c) ^^^ (~~~b &&& d)

/-- `Parity`, the round function of rounds 20 to 39 and 60 to 79 (43_sha1_hmac R133). -/
def parity (b c d : Word) : Word := b ^^^ c ^^^ d

/-- `Maj`, the round function of rounds 40 to 59 (43_sha1_hmac R133). -/
def maj (b c d : Word) : Word := (b &&& c) ^^^ (b &&& d) ^^^ (c &&& d)

/-- f_t (43_sha1_hmac R133). -/
def roundFun (t : Nat) (b c d : Word) : Word :=
  if t < 20 then ch b c d else if t < 40 then parity b c d else if t < 60 then maj b c d
  else parity b c d

/-- K_t (43_sha1_hmac R133). -/
def roundConst (t : Nat) : Word :=
  if t < 20 then 0x5A827999 else if t < 40 then 0x6ED9EBA1 else if t < 60 then 0x8F1BBCDC
  else 0xCA62C1D6

/-- Round t (43_sha1_hmac R135). -/
def sha1Round (s : Chain) (t : Nat) (w : Word) : Chain :=
  { a := rotl 5 s.a + roundFun t s.b s.c s.d + s.e + roundConst t + w
    b := s.a
    c := rotl 30 s.b
    d := s.c
    e := s.d }

/-- The eighty rounds over one block (43_sha1_hmac R135). -/
def sha1Rounds (h : Chain) (p : List Byte) : Chain :=
  (messageSchedule p).zipIdx.foldl (fun s wt => sha1Round s wt.2 wt.1) h

/-- The compression of one block (43_sha1_hmac R135). -/
def compress (h : Chain) (p : List Byte) : Chain :=
  let r := sha1Rounds h p
  { a := h.a + r.a, b := h.b + r.b, c := h.c + r.c, d := h.d + r.d, e := h.e + r.e }

/-- The 20-byte digest of the final chaining values (43_sha1_hmac R136). -/
def Chain.digest (h : Chain) : Vector Byte 20 :=
  be 4 h.a.toNat ++ be 4 h.b.toNat ++ be 4 h.c.toNat ++ be 4 h.d.toNat ++ be 4 h.e.toNat

/-- `SHA1(M)` (43_sha1_hmac R130, R136). -/
def sha1 (m : List Byte) : Vector Byte 20 :=
  ((sha1Blocks (sha1Pad m)).foldl compress Chain.initial).digest

/-- K0, the 64-byte block key (43_sha1_hmac R138). -/
def blockKey (key : List Byte) : List Byte :=
  if key.length ≤ 64 then key ++ List.replicate (64 - key.length) 0
  else (sha1 key).toList ++ List.replicate 44 0

/-- K0 xored bytewise with a pad string of one repeated byte (43_sha1_hmac R137, R139). -/
def xorPad (p : Byte) (k0 : List Byte) : List Byte := k0.map (· ^^^ p)

/-- `HMAC(K, m)` (43_sha1_hmac R137), with ipad 0x36 and opad 0x5C (R139). -/
def hmac (key m : List Byte) : Vector Byte 20 :=
  let k0 := blockKey key
  sha1 (xorPad 0x5C k0 ++ (sha1 (xorPad 0x36 k0 ++ m)).toList)

/-- The dynamic truncation offset, HS[19] & 0x0F (43_sha1_hmac R141). -/
def truncOffset (hs : Vector Byte 20) : Fin 16 := (hs[19].extractLsb' 0 4).toFin

/-- The truncated 31-bit value P (43_sha1_hmac R142). -/
def truncate (hs : Vector Byte 20) : Nat :=
  let off := truncOffset hs
  (hs[off.val] &&& 0x7F).toNat * 2 ^ 24 + hs[off.val + 1].toNat * 2 ^ 16
    + hs[off.val + 2].toNat * 2 ^ 8 + hs[off.val + 3].toNat

/-- The HMAC value HS of a counter, over its 8-byte big-endian form (43_sha1_hmac R140, 20_memory R55). -/
def hotpHash (key : List Byte) (c : Counter) : Vector Byte 20 := hmac key (be 8 c.toNat).toList

/-- `HOTP(K, c)` (43_sha1_hmac R143). -/
def hotp (key : List Byte) (c : Counter) : Nat := truncate (hotpHash key c) % modulus

end Sys2Proof.Machine
end

