-- ==== Sys2Proof/Machine/Operands.lean ====
section
/-! DEFINITION. The operands of the commands: the snapshot (spec/10_state.md rule R40), and the functions
of it that the commands share (spec/42_seed.md rules R111 to R113, spec/44_totp.md rules R161 to R171). -/

namespace Sys2Proof.Machine

/-- The snapshot an issue takes of the inputs and the secret slot (10_state R40, R42). -/
def State.inputs (s : State) : Snapshot :=
  { seedValid := s.seedValid
    secret := s.secret
    window := s.window
    slen := s.slen
    candLen := s.candLen
    cand := s.cand
    timeIn := s.timeIn
    stepIn := s.stepIn
    stage := s.stage }

/-- The operands of the executing command: the snapshot of the pending command (10_state R40). With no
command pending `Complete` is not enabled and no step runs a meaning; a meaning asked there takes the
snapshot that an issue would take (log 6, DESIGN CHOICE, safe). -/
def State.operands (s : State) : Snapshot :=
  match s.pending with
  | some p => p.snap
  | none   => s.inputs

/-! ### The hexadecimal form of the secret -/

/-- `HexVal(ch)`; none where the spec leaves it undefined (42_seed R111). -/
def hexVal (ch : Byte) : Option Byte :=
  if 0x30 ≤ ch.toNat ∧ ch.toNat ≤ 0x39 then some (ch - 0x30)
  else if 0x61 ≤ ch.toNat ∧ ch.toNat ≤ 0x66 then some (ch - 0x61 + 10)
  else none

/-- `IsHex(ch)` (42_seed R111). -/
def isHex (ch : Byte) : Bool := (hexVal ch).isSome

/-- `ValidHex(h, n)` (42_seed R113). -/
abbrev ValidHex (h : Vector Byte 64) (n : Nat) : Prop :=
  n = secretHexChars ∧ ∀ i : Fin 64, isHex h[i] = true

/-- `HexDecode(h)`, the high nibble first, for a text whose characters are all hex digits
(42_seed R112). -/
def hexDecode (h : Vector Byte 64) (valid : ∀ i : Fin 64, isHex h[i] = true) : Vector Byte 32 :=
  Vector.ofFn fun i =>
    16 * (hexVal h[2 * i.val]).get (valid ⟨2 * i.val, by omega⟩)
      + (hexVal h[2 * i.val + 1]).get (valid ⟨2 * i.val + 1, by omega⟩)

/-- STAGE[0..32), the operand of LOADRAW (42_seed R116). -/
def rawSecret (stage : Vector Byte 64) : Vector Byte 32 := Vector.ofFn fun i => stage[i.val]

/-- STAGE[0..N), the operand of B32ENC (41_base32 R103). -/
def stagedBytes (k : Snapshot) : List Byte := k.stage.toList.take k.slen.toNat

/-! ### The code generator -/

/-- `Key(k)` (44_totp R161). -/
def hmacKey (cfg : Config) (k : Vector Byte 32) : List Byte :=
  match cfg.keyMode with
  | .raw      => k.toList
  | .b32Ascii => b32 k.toList cfg.b32Pad

/-- `StepOf(T)` (44_totp R162). -/
def stepOf (t : Counter) : Counter := BitVec.ofNat 64 (t.toNat / period)

/-- `Remaining(T)`, in 1 to 30 (44_totp R163). -/
def remaining (t : Counter) : BitVec 5 := BitVec.ofNat 5 (period - t.toNat % period)

/-- `Counter(ts, snap)`: from TIME when TS = 1, the STEP input when TS = 0 (44_totp R164,
30_encoding R71). -/
def counterOf (ts : Bool) (k : Snapshot) : Counter := if ts then stepOf k.timeIn else k.stepIn

/-- `RemW(ts, snap)`: REMAIN is written only when TS = 1 (44_totp R164). -/
def remainWrites (ts : Bool) (k : Snapshot) : List FieldWrite :=
  if ts then [.remain (remaining k.timeIn)] else []

/-- `Code(k, c)` (44_totp R166). -/
def secretCode (cfg : Config) (k : Vector Byte 32) (c : Counter) : Nat := hotp (hmacKey cfg k) c

/-- `Digits(v)`, the six ASCII digits of v, most significant first (44_totp R167). -/
def digits (v : Nat) : Vector Byte 6 :=
  Vector.ofFn fun j => BitVec.ofNat 8 (0x30 + v / 10 ^ (5 - j.val) % 10)

/-! ### Verification -/

/-- `Window(c, w)`: the counters from c - w to c + w, those outside 0 to 2^64 - 1 skipped (44_totp
R168). -/
def windowCounters (c : Counter) (w : Nat) : List Counter :=
  (List.range (2 * w + 1)).filterMap fun d =>
    let s := c.toNat + d
    if w ≤ s ∧ s - w < 2 ^ 64 then some (BitVec.ofNat 64 (s - w)) else none

/-- `Matches(k, q, c, w)` (44_totp R169). -/
def matchesWindow (cfg : Config) (k : Vector Byte 32) (q : Vector Byte 6) (c : Counter) (w : Nat) : Bool :=
  (windowCounters c w).any fun s => digits (secretCode cfg k s) == q

/-- `ValidCand(L, q)`: exactly six ASCII digits; CAND[6] and CAND[7] are not examined (44_totp R171). -/
abbrev ValidCand (l : BitVec 8) (q : Vector Byte 8) : Prop :=
  l.toNat = digitCount ∧ ∀ i : Fin 6, 0x30 ≤ q[i.val].toNat ∧ q[i.val].toNat ≤ 0x39

/-- CAND[0..6) (44_totp R171). -/
def candCode (q : Vector Byte 8) : Vector Byte 6 := Vector.ofFn fun i => q[i.val]

end Sys2Proof.Machine
end

