-- ==== Sys2Proof/Machine/RegisterMap.lean ====
section
/-! DEFINITION. The register map of the 4 KiB window (spec/10_state.md rule R43, spec/20_memory.md rules
R50, R52, R53). -/

namespace Sys2Proof.Machine

/-- The registers of the window, one per word (10_state R43). -/
inductive Reg
  | id
  | cfg
  | cmd
  | status
  | window
  | slen
  | candLen
  | timeLo
  | timeHi
  | stepLo
  | stepHi
  | candLo
  | candHi
  | code
  | codeALo
  | codeAHi
  | remain
  | stepOutLo
  | stepOutHi
  | b32OutLen
  /-- word k of STAGE -/
  | stage (k : Fin 16)
  /-- word k of B32_OUT -/
  | b32Out (k : Fin 26)
  deriving DecidableEq, Repr

/-- The byte offset of a register (10_state R43). -/
def Reg.offset : Reg → Offset
  | .id        => 0x000
  | .cfg       => 0x004
  | .cmd       => 0x008
  | .status    => 0x00C
  | .window    => 0x010
  | .slen      => 0x014
  | .candLen   => 0x018
  | .timeLo    => 0x020
  | .timeHi    => 0x024
  | .stepLo    => 0x028
  | .stepHi    => 0x02C
  | .candLo    => 0x030
  | .candHi    => 0x034
  | .code      => 0x040
  | .codeALo   => 0x044
  | .codeAHi   => 0x048
  | .remain    => 0x04C
  | .stepOutLo => 0x050
  | .stepOutHi => 0x054
  | .b32OutLen => 0x058
  | .stage k   => BitVec.ofNat 12 (0x080 + 4 * k.val)
  | .b32Out k  => BitVec.ofNat 12 (0x100 + 4 * k.val)

/-- The registers of the window that are one or two words, in the order of 10_state R43. -/
def wordRegs : List Reg :=
  [.id, .cfg, .cmd, .status, .window, .slen, .candLen, .timeLo, .timeHi, .stepLo, .stepHi, .candLo,
    .candHi, .code, .codeALo, .codeAHi, .remain, .stepOutLo, .stepOutHi, .b32OutLen]

/-- The register an offset reaches. An unaligned offset reaches none (20_memory R52), and neither does a
reserved one (R53). -/
def regAt (off : Offset) : Option Reg :=
  if off.toNat % 4 ≠ 0 then none
  else if h : 0x080 ≤ off.toNat ∧ off.toNat < 0x0C0 then
    some (.stage ⟨(off.toNat - 0x080) / 4, by omega⟩)
  else if h : 0x100 ≤ off.toNat ∧ off.toNat < 0x168 then
    some (.b32Out ⟨(off.toNat - 0x100) / 4, by omega⟩)
  else wordRegs.find? fun r => r.offset == off

end Sys2Proof.Machine
end

