-- ==== Sys2Proof/Machine/Ops.lean ====
section
/-! DEFINITION. The named operations: host reads and writes (spec/20_memory.md rules R51 to R54, R59),
issue and completion of a command (spec/10_state.md rules R41, R42) and reset (spec/70_reset_and_hazards.md
rule R220). The block takes no exceptions (spec/60_exceptions.md rules R200, R204): `finish` is the one
shared operation in which every command ends, with or without an error, and nothing returns from it. -/

namespace Sys2Proof.Machine

/-! ### Completion -/

/-- One field assignment (10_state R41). -/
@[simp] def FieldWrite.apply : FieldWrite → State → State
  | .secret k,    s => { s with secret := k }
  | .seedValid,   s => { s with seedValid := true }
  | .matchFlag,   s => { s with matchFlag := true }
  | .code v,      s => { s with code := v }
  | .codeA d,     s => { s with codeA := d }
  | .stepOut c,   s => { s with stepOut := c }
  | .remain r,    s => { s with remain := r }
  | .b32Out t,    s => { s with b32Out := t }
  | .b32OutLen n, s => { s with b32OutLen := n }

/-- The assignments of a list, in order (10_state R41). -/
def applyWrites (ws : List FieldWrite) (s : State) : State := ws.foldl (fun t w => w.apply t) s

/-- `finish(err, writes)`: MATCH <- 0, the writes, ERR <- err, DONE <- 1, PENDING <- none, as one atomic
step (10_state R41). It is also how an error is recorded (60_exceptions R204). -/
def finish (r : Result) (s : State) : State :=
  { applyWrites r.writes { s with matchFlag := false } with err := r.err, done := true, pending := none }

/-- `Execute(ILLEGAL, snap)` (30_encoding R74). -/
def illegalResult : Result := { err := .illegal, writes := [] }

/-! ### Issue -/

/-- Issue clears STAGE for LOADHEX and LOADRAW only; an ILLEGAL word is not these (10_state R42). -/
def clearsStage : Option Instr → Bool
  | some .loadHex => true
  | some .loadRaw => true
  | _             => false

/-- A write of `v` to CMD (10_state R42). -/
def issue (v : Word) (s : State) : State :=
  match s.pending with
  | some _ => { s with ovr := true }
  | none =>
    let d := (decode v).toOption
    { s with
      pending := some { cmd := d, snap := s.inputs }
      done := false
      stage := if clearsStage d then Vector.replicate 64 0 else s.stage }

/-! ### The register window -/

/-- The word a register reads: its fields at their bit positions, reserved bits and write-only registers
0 (20_memory R51; 10_state R22 to R38). -/
def readReg (r : Reg) (s : State) : Word :=
  match r with
  | .id        => idValue
  | .cfg       => cfgWord s.cfg
  | .cmd       => 0
  | .status    => statusWord s
  | .window    => s.window.setWidth 32
  | .slen      => s.slen.setWidth 32
  | .candLen   => s.candLen.setWidth 32
  | .timeLo    => lowWord s.timeIn
  | .timeHi    => highWord s.timeIn
  | .stepLo    => lowWord s.stepIn
  | .stepHi    => highWord s.stepIn
  | .candLo    => bufWord s.cand 0
  | .candHi    => bufWord s.cand 1
  | .code      => s.code.setWidth 32
  | .codeALo   => bufWord s.codeA 0
  | .codeAHi   => bufWord s.codeA 1
  | .remain    => s.remain.setWidth 32
  | .stepOutLo => lowWord s.stepOut
  | .stepOutHi => highWord s.stepOut
  | .b32OutLen => s.b32OutLen.setWidth 32
  | .stage k   => bufWord s.stage k.val
  | .b32Out k  => bufWord s.b32Out k.val

/-- A write of `v` to a register: CMD issues, STATUS clears OVR, a read-write register stores its
writable fields, a read-only register ignores it (20_memory R51, R59; 10_state R22 to R38). -/
def writeReg (r : Reg) (v : Word) (s : State) : State :=
  match r with
  | .cmd       => issue v s
  | .status    => writeStatus v s
  | .window    => { s with window := v.setWidth 8 }
  | .slen      => { s with slen := v.setWidth 8 }
  | .candLen   => { s with candLen := v.setWidth 8 }
  | .timeLo    => { s with timeIn := setLowWord s.timeIn v }
  | .timeHi    => { s with timeIn := setHighWord s.timeIn v }
  | .stepLo    => { s with stepIn := setLowWord s.stepIn v }
  | .stepHi    => { s with stepIn := setHighWord s.stepIn v }
  | .candLo    => { s with cand := setBufWord s.cand 0 v }
  | .candHi    => { s with cand := setBufWord s.cand 1 v }
  | .stage k   => { s with stage := setBufWord s.stage k.val v }
  | .id        => s
  | .cfg       => s
  | .code      => s
  | .codeALo   => s
  | .codeAHi   => s
  | .remain    => s
  | .stepOutLo => s
  | .stepOutHi => s
  | .b32OutLen => s
  | .b32Out _  => s

/-- `BusRead(off)`: an offset that reaches no register reads 0 (20_memory R51 to R53). -/
def busRead (off : Offset) (s : State) : Word :=
  match regAt off with
  | some r => readReg r s
  | none   => 0

/-- `BusWrite(off, v)`: an offset that reaches no register ignores the write (20_memory R51 to R53). -/
def busWrite (off : Offset) (v : Word) (s : State) : State :=
  match regAt off with
  | some r => writeReg r v s
  | none   => s

/-- The system address of an offset; the window sits at `BASE` (20_memory R50). -/
def systemAddress (off : Offset) : Nat := Platform.base + off.toNat

/-- The offset the block sees of a system address, none outside the 4096-byte window (20_memory R50). -/
def offsetOfAddress (address : Nat) : Option Offset :=
  if Platform.base ≤ address ∧ address < Platform.base + 4096 then
    some (BitVec.ofNat 12 (address - Platform.base))
  else none

/-! ### The HOST's steps -/

/-- `RESET`: every field takes its reset value, a pending command is abandoned; the build parameters stay
(70_reset R220), and so do the model's own host-side fields. -/
def hostReset (s : State) : State :=
  { State.resetOf s.cfg with schedule := s.schedule, replies := s.replies }

/-- One step of the HOST (00_scope R8). A read changes nothing of the block (20_memory R59); its word
goes to the replies (log 3). -/
def hostStep (a : HostAction) (s : State) : State :=
  match a with
  | .read off    => s.withReply (busRead off s)
  | .write off v => busWrite off v s
  | .reset       => hostReset s

end Sys2Proof.Machine
end

