-- ==== Sys2Proof/Machine/Base32Codec.lean ====
section
/-! DEFINITION. The B32ENC command (spec/41_base32.md rule R103). -/

namespace Sys2Proof.Machine

/-- A text in the 104-byte output buffer, zero-filled (41_base32 R103). -/
def b32Buffer (t : List Byte) : Vector Byte 104 := Vector.ofFn fun i => t.getD i.val 0

/-- `Execute(B32ENC, snap)` (41_base32 R103). The writes on ERR_LENGTH follow R103 against 60_exceptions
R204, which gives such writes to GEN only (log 12, DEDUCED, unsafe). -/
def b32EncResult (cfg : Config) (k : Snapshot) : Result :=
  if k.slen.toNat > stageBytes then
    { err := .length, writes := [.b32Out (Vector.replicate 104 0), .b32OutLen 0] }
  else
    let t := b32 (stagedBytes k) cfg.b32Pad
    { err := .none, writes := [.b32Out (b32Buffer t), .b32OutLen (BitVec.ofNat 7 t.length)] }

/-- B32ENC (41_base32 R103). -/
def execB32Enc (s : State) : Host.Outcome State Fault Refusal :=
  .next (finish (b32EncResult s.cfg s.operands) s)

end Sys2Proof.Machine
end

