-- ==== Sys2Proof/Machine/SeedStore.lean ====
section
/-! DEFINITION. The LOADHEX and LOADRAW commands (spec/42_seed.md rules R114 to R116). -/

namespace Sys2Proof.Machine

/-- The commit of a secret (42_seed R114). -/
def commitWrites (k : Vector Byte 32) : List FieldWrite := [.secret k, .seedValid]

/-- `Execute(LOADHEX, snap)` (42_seed R115). -/
def loadHexResult (k : Snapshot) : Result :=
  if h : ValidHex k.stage k.slen.toNat then
    { err := .none, writes := commitWrites (hexDecode k.stage h.2) }
  else { err := .validation, writes := [] }

/-- `Execute(LOADRAW, snap)` (42_seed R116). -/
def loadRawResult (k : Snapshot) : Result :=
  if k.slen.toNat ≠ secretBytes then { err := .length, writes := [] }
  else { err := .none, writes := commitWrites (rawSecret k.stage) }

/-- LOADHEX (42_seed R115). -/
def execLoadHex (s : State) : Host.Outcome State Fault Refusal :=
  .next (finish (loadHexResult s.operands) s)

/-- LOADRAW (42_seed R116). -/
def execLoadRaw (s : State) : Host.Outcome State Fault Refusal :=
  .next (finish (loadRawResult s.operands) s)

end Sys2Proof.Machine
end

