-- ==== Sys2Proof/Machine/TotpEngine.lean ====
section
/-! DEFINITION. The NOP, STEP, GEN and VER commands (spec/44_totp.md rules R160, R165, R170, R172). -/

namespace Sys2Proof.Machine

/-- `Execute(NOP, snap)` (44_totp R160). -/
def nopResult : Result := { err := .none, writes := [] }

/-- `Execute(STEP, snap)` (44_totp R165). -/
def stepResult (k : Snapshot) : Result :=
  { err := .none, writes := [.stepOut (stepOf k.timeIn), .remain (remaining k.timeIn)] }

/-- `Execute(GEN, snap)`, with `ts` the TS bit (44_totp R170). -/
def genResult (ts : Bool) (cfg : Config) (k : Snapshot) : Result :=
  if k.seedValid = false then
    { err := .notProvisioned, writes := [.code 0, .codeA (Vector.replicate 6 0)] }
  else
    let c := counterOf ts k
    let v := secretCode cfg k.secret c
    { err := .none
      writes := [.code (BitVec.ofNat 20 v), .codeA (digits v), .stepOut c] ++ remainWrites ts k }

/-- `Execute(VER, snap)`, with `ts` the TS bit. The candidate is checked before the secret (44_totp R172,
60_exceptions R203). -/
def verResult (ts : Bool) (cfg : Config) (k : Snapshot) : Result :=
  if ¬ ValidCand k.candLen k.cand then { err := .input, writes := [] }
  else if k.seedValid = false then { err := .notProvisioned, writes := [] }
  else
    let c := counterOf ts k
    let m := matchesWindow cfg k.secret (candCode k.cand) c k.window.toNat
    { err := .none
      writes := [.stepOut c] ++ remainWrites ts k ++ (if m then [.matchFlag] else []) }

/-- NOP (44_totp R160). -/
def execNop (s : State) : Host.Outcome State Fault Refusal :=
  .next (finish nopResult s)

/-- STEP (44_totp R165). -/
def execStep (s : State) : Host.Outcome State Fault Refusal :=
  .next (finish (stepResult s.operands) s)

/-- GEN.S, the counter from STEP (44_totp R170). -/
def execGenS (s : State) : Host.Outcome State Fault Refusal :=
  .next (finish (genResult false s.cfg s.operands) s)

/-- GEN.T, the counter from TIME (44_totp R170). -/
def execGenT (s : State) : Host.Outcome State Fault Refusal :=
  .next (finish (genResult true s.cfg s.operands) s)

/-- VER.S, the counter from STEP (44_totp R172). -/
def execVerS (s : State) : Host.Outcome State Fault Refusal :=
  .next (finish (verResult false s.cfg s.operands) s)

/-- VER.T, the counter from TIME (44_totp R172). -/
def execVerT (s : State) : Host.Outcome State Fault Refusal :=
  .next (finish (verResult true s.cfg s.operands) s)

end Sys2Proof.Machine
end

