-- ==== Sys2Proof/Machine/Dispatch.lean ====
section
/-! DEFINITION. The dispatch of a command to its meaning, one arm per constructor of Instr. -/

namespace Sys2Proof.Machine

/-- The ENGINE's completion of command `i` (10_state R41). -/
def exec (i : Instr) (s : State) : Host.Outcome State Fault Refusal :=
  match i with
  | .nop => Sys2Proof.Machine.execNop s
  | .loadHex => Sys2Proof.Machine.execLoadHex s
  | .loadRaw => Sys2Proof.Machine.execLoadRaw s
  | .step => Sys2Proof.Machine.execStep s
  | .genS => Sys2Proof.Machine.execGenS s
  | .genT => Sys2Proof.Machine.execGenT s
  | .verS => Sys2Proof.Machine.execVerS s
  | .verT => Sys2Proof.Machine.execVerT s
  | .b32Enc => Sys2Proof.Machine.execB32Enc s

end Sys2Proof.Machine
end

