-- ==== Sys2Proof/Machine/Engine.lean ====
section
/-! DEFINITION. The ENGINE's one step, `Complete` (spec/10_state.md rule R41), and how a command word
comes to be the pending one. -/

namespace Sys2Proof.Machine

/-- `Complete`: the pending command executes; an ILLEGAL one finishes with ERR_ILLEGAL (10_state R41,
30_encoding R74). With none pending the step is not enabled and the turn passes (log 2, DESIGN CHOICE,
safe). -/
def complete (s : State) : Host.Outcome State Fault Refusal :=
  match s.pending with
  | none => .next s
  | some p =>
    match p.cmd with
    | some i => exec i s
    | none   => .next (finish illegalResult s)

/-- The state in which `v` has just been issued and the ENGINE's turn is next. A command that was pending
is set aside first, so the write to CMD is accepted (10_state R42, log 7). -/
def issueNext (v : Word) (s : State) : State :=
  let t := issue v { s with pending := none }
  t.withSchedule (.engine :: t.schedule)

end Sys2Proof.Machine
end

