-- ==== Sys2Proof/Machine/Step.lean ====
section
/-! DEFINITION. One step of the block and its host (spec/00_scope.md rule R8, spec/20_memory.md rule
R61). -/

namespace Sys2Proof.Machine

/-- One step: the agent whose turn is next takes it. When no turn is left, the ENGINE completes what is
pending, so a pending command is always completed eventually (00_scope R8, 10_state R41; log 1). -/
def step (s : State) : Host.Outcome State Fault Refusal :=
  match s.schedule with
  | []                => complete s
  | .engine :: rest   => complete (s.withSchedule rest)
  | .host a :: rest   => .next (hostStep a (s.withSchedule rest))

/-- `s` with the command word of `nbits` bits `w` issued, so that the very next step completes it. The
block fetches nothing (00_scope R2): a command comes to run by a HOST write to CMD, and this stands for
that write (log 7). -/
def State.withFetchWord (s : State) (nbits w : Nat) : State :=
  issueNext (BitVec.ofNat 32 (w % 2 ^ nbits)) s

end Sys2Proof.Machine
end

