-- ==== Sys2Proof/Machine/HostSequence.lean ====
section
/-! DEFINITION. The host sequence statements and their expansions into turns (spec/30_encoding.md rules
R78 and R79). -/

namespace Sys2Proof.Machine

/-- The 64-bit inputs that WR64 writes (30_encoding R79). -/
inductive WideInput
  | time
  | step
  deriving DecidableEq, Repr

/-- The byte buffers that WRSTR writes (30_encoding R79). -/
inductive TextBuffer
  | stage
  | cand
  deriving DecidableEq, Repr

/-- One statement of a host sequence (30_encoding R78, R79). `expect` is the value "the rules give", an
annotation with no effect. -/
inductive HostStmt
  /-- `WR <off>, <value>` -/
  | wr (off : Offset) (v : Word)
  /-- `RD <off>`, with `-> <value>` or without -/
  | rd (off : Offset) (expect : Option Word)
  /-- `CMD <mnemonic>` -/
  | cmd (i : Instr)
  /-- `CMDW <value>` -/
  | cmdw (v : Word)
  /-- `RESET` -/
  | reset
  /-- `POLL` -/
  | poll (expect : Option Word)
  /-- `WR64 <LO-name>, <value>` -/
  | wr64 (r : WideInput) (v : Counter)
  /-- `WRSTR <buffer>, "<text>"` -/
  | wrStr (b : TextBuffer) (text : List Byte)
  /-- `WRHEX STAGE, <hex>` -/
  | wrHex (bytes : List Byte)
  /-- `RUN <mnemonic>` -/
  | run (i : Instr)
  deriving DecidableEq, Repr

/-- A write by the HOST. -/
def wrTurn (off : Offset) (v : Word) : Turn := .host (.write off v)

/-- The registers of a 64-bit input, _LO first (30_encoding R79). -/
def WideInput.regs : WideInput → Reg × Reg
  | .time => (.timeLo, .timeHi)
  | .step => (.stepLo, .stepHi)

/-- The offset of word 0 of a buffer (10_state R43). -/
def TextBuffer.base : TextBuffer → Offset
  | .stage => 0x080
  | .cand  => 0x030

/-- Word k of a text, the last word zero-padded (30_encoding R79, 20_memory R54). -/
def textWord (text : List Byte) (k : Nat) : Word :=
  text.getD (4 * k + 3) 0 ++ text.getD (4 * k + 2) 0 ++ text.getD (4 * k + 1) 0 ++ text.getD (4 * k) 0

/-- One write per word of the text, lowest offset first (30_encoding R79). The rule is silent on a text
longer than its buffer; the model then writes on at the offsets that follow, and past the window's end the
12-bit offset wraps (log 14, DESIGN CHOICE, unsafe). -/
def textTurns (b : TextBuffer) (text : List Byte) : List Turn :=
  (List.range ((text.length + 3) / 4)).map fun k =>
    wrTurn (b.base + BitVec.ofNat 12 (4 * k)) (textWord text k)

/-- `CMD <mnemonic>` writes the mnemonic's word to CMD (30_encoding R78). -/
def cmdTurn (i : Instr) : Turn := wrTurn Reg.cmd.offset (encode i)

/-- `POLL` in the model: the ENGINE's `Complete` followed by one `RD STATUS` (30_encoding R79). -/
def pollTurns : List Turn := [.engine, .host (.read Reg.status.offset)]

/-- The turns a statement stands for (30_encoding R78, R79). -/
def HostStmt.turns : HostStmt → List Turn
  | .wr off v     => [wrTurn off v]
  | .rd off _     => [.host (.read off)]
  | .cmd i        => [cmdTurn i]
  | .cmdw v       => [wrTurn Reg.cmd.offset v]
  | .reset        => [.host .reset]
  | .poll _       => pollTurns
  | .wr64 r v     => [wrTurn r.regs.1.offset (lowWord v), wrTurn r.regs.2.offset (highWord v)]
  | .wrStr b text => textTurns b text
  | .wrHex bytes  => textTurns .stage bytes
  | .run i        => cmdTurn i :: pollTurns

/-- The turns of a host sequence (30_encoding R78). -/
def sequenceTurns (p : List HostStmt) : List Turn := p.flatMap HostStmt.turns

/-- A state whose HOST is about to perform a sequence. -/
def State.withSequence (s : State) (p : List HostStmt) : State :=
  s.withSchedule (sequenceTurns p)

/-- A command's mnemonic (30_encoding R78). -/
def mnemonicOf : Instr → String
  | .nop     => "NOP"
  | .loadHex => "LOADHEX"
  | .loadRaw => "LOADRAW"
  | .step    => "STEP"
  | .genS    => "GEN.S"
  | .genT    => "GEN.T"
  | .verS    => "VER.S"
  | .verT    => "VER.T"
  | .b32Enc  => "B32ENC"

end Sys2Proof.Machine
end

