-- ==== Sys2Proof/Safety.lean ====
section
/-! DEFINITION. The terms in which claims are stated: what a completion leaves, the invariant of the
block, the states that differ only in an unobservable secret, and the reference forms of the spec. -/

namespace Sys2Proof.Machine

/-- The words that 30_encoding R74 calls illegal: RSV not 0, OP in 0x7 to 0xF, or TS = 1 on an OP other
than GEN and VER. -/
def IllegalBits (v : Word) : Prop :=
  v.extractLsb' 5 27 ≠ 0 ∨ 7 ≤ (v.extractLsb' 0 4).toNat
    ∨ (v.getLsbD 4 = true ∧ v.extractLsb' 0 4 ≠ 4 ∧ v.extractLsb' 0 4 ≠ 5)

/-- What every completion with error code `e` leaves where its rule writes no other field: MATCH 0, ERR
`e`, DONE 1 and nothing pending (10_state R41). -/
def State.completed (s : State) (e : ErrCode) : State :=
  { s with matchFlag := false, err := e, done := true, pending := none }

/-- What holds of the block in every state a run from reset reaches. -/
structure Inv (s : State) : Prop where
  /-- CODE is a six-digit value (10_state R33). -/
  code_lt : s.code.toNat < 1000000
  /-- CODE_A holds the digits of CODE, or both are cleared (10_state R34, 44_totp R170). -/
  codeA_digits : s.codeA = digits s.code.toNat ∨ (s.code = 0 ∧ s.codeA = Vector.replicate 6 0)
  /-- REMAIN is in 1 to 30, or 0 before the first time-derived command (10_state R35). -/
  remain_le : s.remain.toNat ≤ 30
  /-- B32_OUT_LEN is at most the size of the buffer (10_state R38). -/
  b32OutLen_le : s.b32OutLen.toNat ≤ 104
  /-- B32_OUT is 0 beyond its length (10_state R36). -/
  b32Out_rest : ∀ i : Fin 104, s.b32OutLen.toNat ≤ i.val → s.b32Out[i] = 0
  /-- DONE and BUSY are never both 1 (10_state R41, R42). -/
  done_idle : s.done = true → s.pending = none
  /-- MATCH is 1 only after a completion without error, with a secret loaded (10_state R25). -/
  match_sound : s.matchFlag = true → s.err = .none ∧ s.seedValid = true
  /-- ERR_NOT_PROVISIONED stands only while no secret is loaded (60_exceptions R201). -/
  not_provisioned : s.err = .notProvisioned → s.seedValid = false
  /-- A pending command's copy of the secret slot is the slot: commands run one at a time (20_memory
  R60). -/
  snap_slot : ∀ p, s.pending = some p → p.snap.seedValid = s.seedValid ∧ p.snap.secret = s.secret

/-- Two snapshots that are equal but for the secret, and equal in that too where SEED_VALID was 1. -/
def SameSnapshot (k l : Snapshot) : Prop :=
  l = { k with secret := l.secret } ∧ (k.seedValid = true → l.secret = k.secret)

/-- Nothing pending in either, or the same command with the same snapshot in the sense above. -/
def SamePending : Option Pending → Option Pending → Prop
  | none,   none   => True
  | some p, some q => q.cmd = p.cmd ∧ SameSnapshot p.snap q.snap
  | none,   some _ => False
  | some _, none   => False

/-- Two states that are equal but for what SECRET held, or a pending snapshot latched of it, while
SEED_VALID was 0 (10_state R39, 93 I5). -/
def SameUntilLoaded (s t : State) : Prop :=
  t = { s with secret := t.secret, pending := t.pending }
    ∧ (s.seedValid = true → t.secret = s.secret) ∧ SamePending s.pending t.pending

/-- The result registers keep their values (70_reset R223). -/
def SameResults (s t : State) : Prop :=
  t.code = s.code ∧ t.codeA = s.codeA ∧ t.remain = s.remain ∧ t.stepOut = s.stepOut
    ∧ t.b32Out = s.b32Out ∧ t.b32OutLen = s.b32OutLen ∧ t.err = s.err ∧ t.matchFlag = s.matchFlag

/-- The input registers keep their values (30_encoding R75). -/
def SameInputs (s t : State) : Prop :=
  t.window = s.window ∧ t.slen = s.slen ∧ t.candLen = s.candLen ∧ t.cand = s.cand
    ∧ t.timeIn = s.timeIn ∧ t.stepIn = s.stepIn ∧ t.stage = s.stage

/-- It is the ENGINE's turn to complete: its turn is next, or no turn is left (00_scope R8, log 1). -/
def State.engineNext (s : State) : Bool :=
  match s.schedule with
  | []          => true
  | .engine :: _ => true
  | .host _ :: _ => false

/-- RESET is the next turn. -/
def State.resetNext (s : State) : Bool :=
  match s.schedule with
  | .host .reset :: _ => true
  | _ => false

/-- Two snapshots agree on the operands that a command reads, as the table of 30_encoding R75 lists
them. -/
def SameOperands : Instr → Snapshot → Snapshot → Prop
  | .nop,     _, _ => True
  | .loadHex, k, l => l.slen = k.slen ∧ l.stage = k.stage
  | .loadRaw, k, l => l.slen = k.slen ∧ ∀ i : Fin 32, l.stage[i.val] = k.stage[i.val]
  | .step,    k, l => l.timeIn = k.timeIn
  | .genS,    k, l => l.seedValid = k.seedValid ∧ l.secret = k.secret ∧ l.stepIn = k.stepIn
  | .genT,    k, l => l.seedValid = k.seedValid ∧ l.secret = k.secret ∧ l.timeIn = k.timeIn
  | .verS,    k, l =>
    l.candLen = k.candLen ∧ (∀ i : Fin 6, l.cand[i.val] = k.cand[i.val]) ∧ l.seedValid = k.seedValid
      ∧ l.secret = k.secret ∧ l.window = k.window ∧ l.stepIn = k.stepIn
  | .verT,    k, l =>
    l.candLen = k.candLen ∧ (∀ i : Fin 6, l.cand[i.val] = k.cand[i.val]) ∧ l.seedValid = k.seedValid
      ∧ l.secret = k.secret ∧ l.window = k.window ∧ l.timeIn = k.timeIn
  | .b32Enc,  k, l => l.slen = k.slen ∧ ∀ i : Fin 64, i.val < k.slen.toNat → l.stage[i] = k.stage[i]

/-- A command's completion changes only the fields that the table of 30_encoding R75 says it may write,
and ERR, MATCH, DONE and PENDING (10_state R41). -/
def WritesOnly (i : Instr) (s t : State) : Prop :=
  SameInputs s t ∧ t.cfg = s.cfg ∧ t.ovr = s.ovr ∧ t.schedule = s.schedule ∧ t.replies = s.replies
    ∧ (i ≠ .loadHex → i ≠ .loadRaw → t.secret = s.secret ∧ t.seedValid = s.seedValid)
    ∧ (i ≠ .genS → i ≠ .genT → t.code = s.code ∧ t.codeA = s.codeA)
    ∧ (i = .nop ∨ i = .loadHex ∨ i = .loadRaw ∨ i = .b32Enc → t.stepOut = s.stepOut)
    ∧ (i ≠ .step → i ≠ .genT → i ≠ .verT → t.remain = s.remain)
    ∧ (i ≠ .b32Enc → t.b32Out = s.b32Out ∧ t.b32OutLen = s.b32OutLen)
    ∧ (i ≠ .verS → i ≠ .verT → t.matchFlag = false)

/-- Bit k of a byte string read most significant bit first, 0 beyond its end (41_base32 R100). -/
def b32Bit (s : List Byte) (k : Nat) : Nat :=
  if k < 8 * s.length then ((s.getD (k / 8) 0).toNat / 2 ^ (7 - k % 8)) % 2 else 0

/-- Character j of the unpadded text, in closed form (41_base32 R100). -/
def b32Char (s : List Byte) (j : Nat) : Byte :=
  alphabet (b32Bit s (5 * j) * 16 + b32Bit s (5 * j + 1) * 8 + b32Bit s (5 * j + 2) * 4
    + b32Bit s (5 * j + 3) * 2 + b32Bit s (5 * j + 4))

/-- The unpadded text in closed form, ceil(8n / 5) characters (41_base32 R100). -/
def b32ClosedForm (s : List Byte) : List Byte :=
  (List.range ((8 * s.length + 4) / 5)).map (b32Char s)

/-- The lowercase hexadecimal character of a nibble (42_seed R111). -/
def hexChar (n : Nat) : Byte :=
  if n < 10 then BitVec.ofNat 8 (0x30 + n) else BitVec.ofNat 8 (0x61 + (n - 10))

/-- The lowercase hex text of a secret, the high nibble first (42_seed R112, R117). -/
def hexText (k : Vector Byte 32) : Vector Byte 64 :=
  Vector.ofFn fun i =>
    if i.val % 2 = 0 then hexChar (k[i.val / 2].toNat / 16) else hexChar (k[i.val / 2].toNat % 16)

end Sys2Proof.Machine
end

