-- ==== Sys2Proof/Certificates/Slice0/Obligations.lean ====
section
/-! DEFINITION. The statements for the provers. Each docstring names the rule of spec/ it formalises. A
command's own effect is stated of `exec` in a state whose pending command is that command, with snapshot
`k`: that is the state in which the step runs it. -/

open Sys2Proof Sys2Proof.Machine

/-! ### Encoding -/

/-- 30_encoding R72: the nine words of the opcode map decode to their commands. -/
def Obligations.OpcodeMapWordsDecode : Prop :=
  decode 0x00000000 = .ok .nop ∧ decode 0x00000001 = .ok .loadHex ∧ decode 0x00000002 = .ok .loadRaw
    ∧ decode 0x00000003 = .ok .step ∧ decode 0x00000004 = .ok .genS ∧ decode 0x00000014 = .ok .genT
    ∧ decode 0x00000005 = .ok .verS ∧ decode 0x00000015 = .ok .verT ∧ decode 0x00000006 = .ok .b32Enc

/-- 30_encoding R72, R73: exactly nine words decode to a legal command, each to its own. -/
def Obligations.ExactlyNineWordsAreLegal : Prop :=
  ∀ v : Word,
    (decode v = .ok .nop ↔ v = 0x00000000) ∧ (decode v = .ok .loadHex ↔ v = 0x00000001)
    ∧ (decode v = .ok .loadRaw ↔ v = 0x00000002) ∧ (decode v = .ok .step ↔ v = 0x00000003)
    ∧ (decode v = .ok .genS ↔ v = 0x00000004) ∧ (decode v = .ok .genT ↔ v = 0x00000014)
    ∧ (decode v = .ok .verS ↔ v = 0x00000005) ∧ (decode v = .ok .verT ↔ v = 0x00000015)
    ∧ (decode v = .ok .b32Enc ↔ v = 0x00000006)

/-- 30_encoding R73: decoding and encoding agree, on every instruction and on every 32-bit word. -/
def Obligations.DecodeAndEncodeAgree : Prop :=
  (∀ i : Instr, i.wellFormed = true ∧ decode (encode i) = .ok i)
    ∧ ∀ (v : Word) (i : Instr), decode v = .ok i → encode i = v

/-- 30_encoding R74: which words are ILLEGAL. -/
def Obligations.IllegalWordsCharacterised : Prop :=
  ∀ v : Word, (∃ e, decode v = .error e) ↔ IllegalBits v

/-- 30_encoding R74 with 10_state R42: an illegal word is issued like any other, so it becomes pending
and sets BUSY and leaves STAGE and the results; the ENGINE's turn, whenever it comes while an illegal
command is pending, changes ERR, MATCH and DONE only. (The step of a state with no turn left is in
StepRunsTheDecodedCommand.) -/
def Obligations.IllegalWordCompletesWithErrIllegal : Prop :=
  (∀ (s : State) (v : Word) (rest : List Turn),
    IllegalBits v → s.pending = none → s.schedule = .host (.write 0x008 v) :: rest →
    ∃ t, step s = .next t ∧ t.pending = some ⟨none, s.inputs⟩ ∧ t.busy = true ∧ t.stage = s.stage
      ∧ SameResults s t
      ∧ t = { s with pending := some ⟨none, s.inputs⟩, done := false, schedule := rest })
  ∧ (∀ (s : State) (k : Snapshot) (rest : List Turn),
    s.pending = some ⟨none, k⟩ → s.schedule = .engine :: rest →
    step s = .next { s with
      err := .illegal, matchFlag := false, done := true, pending := none, schedule := rest })

/-! ### The step -/

/-- 10_state R41, R42: a legal word written to CMD in an idle block is latched with the snapshot; and
whenever the ENGINE's turn comes while a legal command is pending, whatever turns of the HOST fell between,
it runs exactly that command. By the model's own choice (log 1) a step with no turn left completes the
pending command, legal or illegal, too. -/
def Obligations.StepRunsTheDecodedCommand : Prop :=
  (∀ (s : State) (v : Word) (i : Instr) (rest : List Turn),
    decode v = .ok i → s.pending = none → s.schedule = .host (.write 0x008 v) :: rest →
    ∃ t, step s = .next t ∧ t.pending = some ⟨some i, s.inputs⟩ ∧ t.schedule = rest)
  ∧ (∀ (s : State) (i : Instr) (k : Snapshot) (rest : List Turn),
    s.pending = some ⟨some i, k⟩ → s.schedule = .engine :: rest →
    step s = exec i (s.withSchedule rest))
  ∧ (∀ (s : State) (i : Instr) (k : Snapshot),
    s.pending = some ⟨some i, k⟩ → s.schedule = [] → step s = exec i s)
  ∧ (∀ (s : State) (k : Snapshot),
    s.pending = some ⟨none, k⟩ → s.schedule = [] → step s = .next (s.completed .illegal))

/-- 60_exceptions R200: no command traps, stops the block or leaves it stuck. -/
def Obligations.EveryStepAnswersNext : Prop := ∀ s : State, ∃ t, step s = .next t

/-- 10_state R41, weak fairness in the model's own form (log 1): with no RESET among the turns, a pending
command completes, at the latest in the step after the last turn. -/
def Obligations.PendingCommandCompletes : Prop :=
  ∀ (s : State) (p : Pending), s.pending = some p → (.host .reset) ∉ s.schedule →
    ∃ n t, n ≤ s.schedule.length ∧ core.run n s = .next t ∧ t.pending = some p
      ∧ t.engineNext = true ∧ ∃ u, step t = .next u ∧ u.pending = none ∧ u.done = true

/-- 20_memory R51, R59: a read answers the word at its offset and changes nothing of the block, two reads
in a row answer the same word, and a write is the write to the register its offset reaches. The replies
and the turns are the model's own fields (log 1, log 3); RESET keeps them. -/
def Obligations.BusTurnsReadAndWriteTheWindow : Prop :=
  (∀ (s : State) (off : Offset) (rest : List Turn), s.schedule = .host (.read off) :: rest →
    step s = .next { s with schedule := rest, replies := s.replies ++ [busRead off s] })
  ∧ (∀ (s : State) (off : Offset) (rest : List Turn),
    s.schedule = .host (.read off) :: .host (.read off) :: rest →
    core.run 2 s = .next { s with
      schedule := rest, replies := s.replies ++ [busRead off s, busRead off s] })
  ∧ (∀ (s : State) (off : Offset) (v : Word) (rest : List Turn),
    s.schedule = .host (.write off v) :: rest →
    step s = .next (busWrite off v (s.withSchedule rest)))
  ∧ (∀ (s : State) (rest : List Turn), s.schedule = .host .reset :: rest →
    ∃ t, step s = .next t ∧ t.schedule = rest ∧ t.replies = s.replies)

/-! ### The register window -/

/-- 10_state R43: the map's offsets are distinct and word-aligned, and an offset reaches a register
exactly when it is that register's. -/
def Obligations.RegisterMapIsUnambiguous : Prop :=
  ∀ (off : Offset) (r : Reg), regAt off = some r ↔ r.offset = off

/-- 20_memory R52, R53: an unaligned or reserved offset reads 0 and ignores a write. -/
def Obligations.UnalignedAndReservedOffsetsAreRazWi : Prop :=
  ∀ (s : State) (off : Offset) (v : Word),
    (off.toNat % 4 ≠ 0 ∨ (0x01C ≤ off.toNat ∧ off.toNat < 0x020) ∨ (0x038 ≤ off.toNat ∧ off.toNat < 0x040)
      ∨ (0x05C ≤ off.toNat ∧ off.toNat < 0x080) ∨ (0x0C0 ≤ off.toNat ∧ off.toNat < 0x100)
      ∨ 0x168 ≤ off.toNat) →
    busRead off s = 0 ∧ busWrite off v s = s

/-- 20_memory R59: a write to a read-only register has no effect. -/
def Obligations.ReadOnlyRegistersIgnoreWrites : Prop :=
  ∀ (s : State) (off : Offset) (v : Word),
    (off = 0x000 ∨ off = 0x004 ∨ (0x040 ≤ off.toNat ∧ off.toNat < 0x05C)
      ∨ (0x100 ≤ off.toNat ∧ off.toNat < 0x168)) →
    busWrite off v s = s

/-- 10_state R22, R23: the constant registers. -/
def Obligations.IdentificationAndParametersRead : Prop :=
  ∀ s : State, busRead 0x000 s = 0x544F5450
    ∧ ((busRead 0x004 s).getLsbD 0 = true ↔ s.cfg.keyMode = .b32Ascii)
    ∧ ((busRead 0x004 s).getLsbD 1 = true ↔ s.cfg.b32Pad = .pad)
    ∧ (busRead 0x004 s).extractLsb' 2 30 = 0
    ∧ (∀ v : Word, busWrite 0x000 v s = s ∧ busWrite 0x004 v s = s)
    ∧ ∀ t, step s = .next t → busRead 0x004 t = busRead 0x004 s

/-- 10_state R25, 60_exceptions R201: the fields a read of STATUS returns, and the one field a write of it
changes. -/
def Obligations.StatusFieldsAndOverrunClear : Prop :=
  ∀ s : State,
    (∀ v : Word, (v.getLsbD 4 = true → busWrite 0x00C v s = { s with ovr := false })
      ∧ (v.getLsbD 4 = false → busWrite 0x00C v s = s))
    ∧ (busRead 0x00C s).getLsbD 0 = s.pending.isSome ∧ (busRead 0x00C s).getLsbD 1 = s.done
    ∧ (busRead 0x00C s).getLsbD 2 = s.seedValid ∧ (busRead 0x00C s).getLsbD 3 = s.matchFlag
    ∧ (busRead 0x00C s).getLsbD 4 = s.ovr ∧ (busRead 0x00C s).extractLsb' 5 3 = 0
    ∧ (busRead 0x00C s).extractLsb' 12 20 = 0
    ∧ ((busRead 0x00C s).extractLsb' 8 4 = match s.err with
        | .none => 0 | .illegal => 1 | .notProvisioned => 2 | .validation => 3 | .input => 4
        | .length => 5)

/-- 10_state R26, R27, R28: the 8-bit inputs store bits 7:0, drop the rest and read back. -/
def Obligations.ByteInputsStoreAndReadBack : Prop :=
  ∀ (s : State) (v : Word), ∃ b : BitVec 8, b.toNat = v.toNat % 256
    ∧ busWrite 0x010 v s = { s with window := b } ∧ busWrite 0x014 v s = { s with slen := b }
    ∧ busWrite 0x018 v s = { s with candLen := b }
    ∧ (busRead 0x010 s).toNat = s.window.toNat ∧ (busRead 0x014 s).toNat = s.slen.toNat
    ∧ (busRead 0x018 s).toNat = s.candLen.toNat

/-- 10_state R30, R32: TIME and STEP are HI * 2^32 + LO, and a write to one half keeps the other. -/
def Obligations.WideInputsAreTwoWords : Prop :=
  ∀ (s : State) (v : Word),
    s.timeIn.toNat = (busRead 0x024 s).toNat * 2 ^ 32 + (busRead 0x020 s).toNat
    ∧ s.stepIn.toNat = (busRead 0x02C s).toNat * 2 ^ 32 + (busRead 0x028 s).toNat
    ∧ (∃ c : Counter, busWrite 0x020 v s = { s with timeIn := c }
        ∧ c.toNat = (busRead 0x024 s).toNat * 2 ^ 32 + v.toNat)
    ∧ (∃ c : Counter, busWrite 0x024 v s = { s with timeIn := c }
        ∧ c.toNat = v.toNat * 2 ^ 32 + (busRead 0x020 s).toNat)
    ∧ (∃ c : Counter, busWrite 0x028 v s = { s with stepIn := c }
        ∧ c.toNat = (busRead 0x02C s).toNat * 2 ^ 32 + v.toNat)
    ∧ (∃ c : Counter, busWrite 0x02C v s = { s with stepIn := c }
        ∧ c.toNat = v.toNat * 2 ^ 32 + (busRead 0x028 s).toNat)

/-- 20_memory R54: the word of a byte buffer, in STAGE, B32_OUT, CAND and CODE_A, and the two words of
TIME, STEP and STEP_OUT. -/
def Obligations.BufferWordsAreLeastSignificantLaneFirst : Prop :=
  ∀ s : State,
    (∀ k : Fin 16, (busRead (BitVec.ofNat 12 (0x080 + 4 * k.val)) s).toNat
      = s.stage[4 * k.val].toNat + 256 * s.stage[4 * k.val + 1].toNat
        + 65536 * s.stage[4 * k.val + 2].toNat + 16777216 * s.stage[4 * k.val + 3].toNat)
    ∧ (∀ k : Fin 26, (busRead (BitVec.ofNat 12 (0x100 + 4 * k.val)) s).toNat
      = s.b32Out[4 * k.val].toNat + 256 * s.b32Out[4 * k.val + 1].toNat
        + 65536 * s.b32Out[4 * k.val + 2].toNat + 16777216 * s.b32Out[4 * k.val + 3].toNat)
    ∧ (busRead 0x030 s).toNat = s.cand[0].toNat + 256 * s.cand[1].toNat + 65536 * s.cand[2].toNat
        + 16777216 * s.cand[3].toNat
    ∧ (busRead 0x034 s).toNat = s.cand[4].toNat + 256 * s.cand[5].toNat + 65536 * s.cand[6].toNat
        + 16777216 * s.cand[7].toNat
    ∧ (busRead 0x044 s).toNat = s.codeA[0].toNat + 256 * s.codeA[1].toNat + 65536 * s.codeA[2].toNat
        + 16777216 * s.codeA[3].toNat
    ∧ (busRead 0x048 s).toNat = s.codeA[4].toNat + 256 * s.codeA[5].toNat
    ∧ (busRead 0x020 s).toNat = s.timeIn.toNat % 2 ^ 32 ∧ (busRead 0x024 s).toNat = s.timeIn.toNat / 2 ^ 32
    ∧ (busRead 0x028 s).toNat = s.stepIn.toNat % 2 ^ 32 ∧ (busRead 0x02C s).toNat = s.stepIn.toNat / 2 ^ 32
    ∧ (busRead 0x050 s).toNat = s.stepOut.toNat % 2 ^ 32
    ∧ (busRead 0x054 s).toNat = s.stepOut.toNat / 2 ^ 32

/-- 10_state R29, R31: a write to a word of CAND or STAGE replaces its four bytes and keeps every other
byte and field; a read then returns the word written. -/
def Obligations.BufferWritesReplaceOneWord : Prop :=
  ∀ (s : State) (v : Word),
    (∀ k : Fin 16, ∃ b : Vector Byte 64,
      busWrite (BitVec.ofNat 12 (0x080 + 4 * k.val)) v s = { s with stage := b }
      ∧ busRead (BitVec.ofNat 12 (0x080 + 4 * k.val)) { s with stage := b } = v
      ∧ ∀ i : Fin 64, i.val / 4 ≠ k.val → b[i] = s.stage[i])
    ∧ (∀ k : Fin 2, ∃ b : Vector Byte 8,
      busWrite (BitVec.ofNat 12 (0x030 + 4 * k.val)) v s = { s with cand := b }
      ∧ busRead (BitVec.ofNat 12 (0x030 + 4 * k.val)) { s with cand := b } = v
      ∧ ∀ i : Fin 8, i.val / 4 ≠ k.val → b[i] = s.cand[i])

/-- 10_state R33, R35, R37, R38: the result registers read their fields. -/
def Obligations.ResultRegistersReadTheirFields : Prop :=
  ∀ s : State, (busRead 0x040 s).toNat = s.code.toNat ∧ (busRead 0x04C s).toNat = s.remain.toNat
    ∧ s.stepOut.toNat = (busRead 0x054 s).toNat * 2 ^ 32 + (busRead 0x050 s).toNat
    ∧ (busRead 0x058 s).toNat = s.b32OutLen.toNat

/-! ### Issue -/

/-- 10_state R24, R42: CMD reads 0; a write to CMD in an idle block latches the decoded word with copies of the inputs and
the secret slot, clears DONE, clears STAGE for the two loads, and changes nothing else; while a command is
pending it is dropped and sets OVR. -/
def Obligations.IssueLatchesOrOverruns : Prop :=
  ∀ (s : State) (v : Word),
    (s.pending = none →
      busWrite 0x008 v s =
        { s with
          pending := some
            { cmd := (decode v).toOption
              snap :=
                { seedValid := s.seedValid, secret := s.secret, window := s.window, slen := s.slen
                  candLen := s.candLen, cand := s.cand, timeIn := s.timeIn, stepIn := s.stepIn
                  stage := s.stage } }
          done := false
          stage := if v = 1 ∨ v = 2 then Vector.replicate 64 0 else s.stage })
    ∧ (∀ p, s.pending = some p → busWrite 0x008 v s = { s with ovr := true })
    ∧ busRead 0x008 s = 0

/-! ### The commands -/

/-- 44_totp R160: NOP. -/
def Obligations.NopOnlyCompletes : Prop :=
  ∀ s : State, exec .nop s = .next { s with
    err := .none, matchFlag := false, done := true, pending := none }

/-- 44_totp R162, R163, R165: STEP writes the step of TIME and the seconds that remain in it. -/
def Obligations.StepComputesStepAndRemaining : Prop :=
  ∀ (s : State) (k : Snapshot), s.pending = some ⟨some .step, k⟩ →
    ∃ (c : Counter) (r : BitVec 5), c.toNat = k.timeIn.toNat / 30
      ∧ r.toNat = 30 - k.timeIn.toNat % 30 ∧ 1 ≤ r.toNat ∧ r.toNat ≤ 30
      ∧ exec .step s = .next { s.completed .none with stepOut := c, remain := r }

/-- 42_seed R112, R115: LOADHEX commits the decoded text, or leaves the slot untouched. -/
def Obligations.LoadHexValidatesAndCommits : Prop :=
  ∀ (s : State) (k : Snapshot), s.pending = some ⟨some .loadHex, k⟩ →
    (k.slen = 64 → (∀ i : Fin 64, isHex k.stage[i] = true) →
      ∃ key : Vector Byte 32,
        (∀ i : Fin 32, ∃ hi lo : Byte, hexVal k.stage[2 * i.val] = some hi
          ∧ hexVal k.stage[2 * i.val + 1] = some lo
          ∧ key[i].toNat = 16 * hi.toNat + lo.toNat)
        ∧ exec .loadHex s = .next { s.completed .none with secret := key, seedValid := true })
    ∧ (k.slen ≠ 64 ∨ (∃ i : Fin 64, isHex k.stage[i] = false) →
      exec .loadHex s = .next (s.completed .validation))

/-- 42_seed R111: the hex digits and their values; no other byte is one. -/
def Obligations.HexDigitsAndTheirValues : Prop :=
  ∀ ch : Byte,
    (∀ n : Byte, hexVal ch = some n ↔
      (0x30 ≤ ch.toNat ∧ ch.toNat ≤ 0x39 ∧ n.toNat = ch.toNat - 0x30)
        ∨ (0x61 ≤ ch.toNat ∧ ch.toNat ≤ 0x66 ∧ n.toNat = ch.toNat - 0x61 + 10))
    ∧ (isHex ch = true ↔ ∃ n, hexVal ch = some n)

/-- 42_seed R117: LOADHEX of the lowercase hex text of a secret stores it, the same as LOADRAW of it. -/
def Obligations.HexTextRoundTrip : Prop :=
  ∀ (s : State) (key : Vector Byte 32) (k l : Snapshot),
    k.slen = 64 → k.stage = hexText key → l.slen = 32 →
    (∀ i : Fin 32, l.stage[i.val] = key[i]) →
    exec .loadHex { s with pending := some ⟨some .loadHex, k⟩ }
        = .next { s.completed .none with secret := key, seedValid := true }
      ∧ exec .loadRaw { s with pending := some ⟨some .loadRaw, l⟩ }
        = .next { s.completed .none with secret := key, seedValid := true }

/-- 42_seed R116: LOADRAW commits STAGE[0..32), or leaves the slot untouched. -/
def Obligations.LoadRawCommitsThirtyTwoBytes : Prop :=
  ∀ (s : State) (k : Snapshot), s.pending = some ⟨some .loadRaw, k⟩ →
    (k.slen = 32 → ∃ key : Vector Byte 32, (∀ i : Fin 32, key[i] = k.stage[i.val])
      ∧ exec .loadRaw s = .next { s.completed .none with secret := key, seedValid := true })
    ∧ (k.slen ≠ 32 → exec .loadRaw s = .next (s.completed .length))

/-- 44_totp R166, R170: GEN.S and GEN.T write the code of their counter in binary and as six
digits. -/
def Obligations.GenWritesTheCodeOfItsCounter : Prop :=
  (∀ (s : State) (k : Snapshot), s.pending = some ⟨some .genS, k⟩ →
    (k.seedValid = false → exec .genS s = .next { s.completed .notProvisioned with
      code := 0, codeA := Vector.replicate 6 0 })
    ∧ (k.seedValid = true → ∃ (v : BitVec 20) (text : Vector Byte 6),
      v.toNat = hotp (hmacKey s.cfg k.secret) k.stepIn
      ∧ (∀ j : Fin 6, text[j].toNat = 0x30 + v.toNat / 10 ^ (5 - j.val) % 10)
      ∧ exec .genS s = .next { s.completed .none with
          code := v, codeA := text, stepOut := k.stepIn }))
  ∧ (∀ (s : State) (k : Snapshot), s.pending = some ⟨some .genT, k⟩ →
    (k.seedValid = false → exec .genT s = .next { s.completed .notProvisioned with
      code := 0, codeA := Vector.replicate 6 0 })
    ∧ (k.seedValid = true → ∃ (v : BitVec 20) (text : Vector Byte 6) (c : Counter) (r : BitVec 5),
      c.toNat = k.timeIn.toNat / 30 ∧ r.toNat = 30 - k.timeIn.toNat % 30
      ∧ v.toNat = hotp (hmacKey s.cfg k.secret) c
      ∧ (∀ j : Fin 6, text[j].toNat = 0x30 + v.toNat / 10 ^ (5 - j.val) % 10)
      ∧ exec .genT s = .next { s.completed .none with
          code := v, codeA := text, stepOut := c, remain := r }))

/-- 44_totp R171, R172: VER.S and VER.T refuse a malformed candidate first, then a missing secret, and
otherwise report whether some counter of the window has the candidate as its digits. -/
def Obligations.VerMatchesTheWindowOfItsCounter : Prop :=
  (∀ (s : State) (k : Snapshot), s.pending = some ⟨some .verS, k⟩ →
    (k.candLen ≠ 6 ∨ (∃ i : Fin 6, k.cand[i.val].toNat < 0x30 ∨ 0x39 < k.cand[i.val].toNat) →
      exec .verS s = .next (s.completed .input))
    ∧ (k.candLen = 6 → (∀ i : Fin 6, 0x30 ≤ k.cand[i.val].toNat ∧ k.cand[i.val].toNat ≤ 0x39) →
      (k.seedValid = false → exec .verS s = .next (s.completed .notProvisioned))
      ∧ (k.seedValid = true → ∃ m : Bool,
        (m = true ↔ ∃ c : Counter, k.stepIn.toNat ≤ c.toNat + k.window.toNat
          ∧ c.toNat ≤ k.stepIn.toNat + k.window.toNat
          ∧ ∀ j : Fin 6, k.cand[j.val].toNat
              = 0x30 + hotp (hmacKey s.cfg k.secret) c / 10 ^ (5 - j.val) % 10)
        ∧ exec .verS s = .next { s.completed .none with stepOut := k.stepIn, matchFlag := m })))
  ∧ (∀ (s : State) (k : Snapshot), s.pending = some ⟨some .verT, k⟩ →
    (k.candLen ≠ 6 ∨ (∃ i : Fin 6, k.cand[i.val].toNat < 0x30 ∨ 0x39 < k.cand[i.val].toNat) →
      exec .verT s = .next (s.completed .input))
    ∧ (k.candLen = 6 → (∀ i : Fin 6, 0x30 ≤ k.cand[i.val].toNat ∧ k.cand[i.val].toNat ≤ 0x39) →
      (k.seedValid = false → exec .verT s = .next (s.completed .notProvisioned))
      ∧ (k.seedValid = true → ∃ (m : Bool) (mid : Counter) (r : BitVec 5),
        mid.toNat = k.timeIn.toNat / 30 ∧ r.toNat = 30 - k.timeIn.toNat % 30
        ∧ (m = true ↔ ∃ c : Counter, mid.toNat ≤ c.toNat + k.window.toNat
          ∧ c.toNat ≤ mid.toNat + k.window.toNat
          ∧ ∀ j : Fin 6, k.cand[j.val].toNat
              = 0x30 + hotp (hmacKey s.cfg k.secret) c / 10 ^ (5 - j.val) % 10)
        ∧ exec .verT s = .next { s.completed .none with
            stepOut := mid, remain := r, matchFlag := m })))

/-- 41_base32 R103: B32ENC. That ERR_LENGTH clears B32_OUT and B32_OUT_LEN is the model's choice between
R103 and 60_exceptions R204 (log 12). -/
def Obligations.B32EncEncodesTheStagedBytes : Prop :=
  ∀ (s : State) (k : Snapshot), s.pending = some ⟨some .b32Enc, k⟩ →
    (64 < k.slen.toNat → exec .b32Enc s = .next { s.completed .length with
      b32Out := Vector.replicate 104 0, b32OutLen := 0 })
    ∧ (k.slen.toNat ≤ 64 → ∃ (text : List Byte) (out : Vector Byte 104) (n : BitVec 7),
      text = b32 (k.stage.toList.take k.slen.toNat) s.cfg.b32Pad
      ∧ text.length ≤ 104 ∧ n.toNat = text.length
      ∧ (∀ i : Fin 104, out[i] = if h : i.val < text.length then text[i.val] else 0)
      ∧ exec .b32Enc s = .next { s.completed .none with b32Out := out, b32OutLen := n })

/-- 44_totp R173, self-consistency: the text a successful GEN.T at time T writes is accepted by a VER.T
at the same T, and by a VER.S with STEP = T div 30, whatever the window. -/
def Obligations.GeneratedCodeVerifies : Prop :=
  ∀ (s t u : State) (k l : Snapshot),
    s.pending = some ⟨some .genT, k⟩ → k.seedValid = true → exec .genT s = .next t →
    u.cfg = s.cfg → l.seedValid = true → l.secret = k.secret → l.candLen = 6 →
    (∀ j : Fin 6, l.cand[j.val] = t.codeA[j]) →
    (l.timeIn = k.timeIn → ∃ w, exec .verT { u with pending := some ⟨some .verT, l⟩ } = .next w
      ∧ w.matchFlag = true)
    ∧ (l.stepIn = t.stepOut → ∃ w, exec .verS { u with pending := some ⟨some .verS, l⟩ } = .next w
      ∧ w.matchFlag = true)

/-! ### What a command reads and writes, and its errors -/

/-- 30_encoding R75: a command reads only the operands its row lists and writes only the fields its row
lists, with ERR, MATCH and DONE; the issue of a load clears STAGE. -/
def Obligations.CommandsReadAndWriteTheirOperands : Prop :=
  (∀ (i : Instr) (s t : State), exec i s = .next t →
    WritesOnly i s t ∧ t.done = true ∧ t.pending = none)
  ∧ (∀ (i : Instr) (s : State) (k l : Snapshot), SameOperands i k l →
    exec i { s with pending := some ⟨some i, k⟩ } = exec i { s with pending := some ⟨some i, l⟩ })
  ∧ (∀ (s : State) (v : Word), s.pending = none → decode v = .ok .loadHex ∨ decode v = .ok .loadRaw →
    (busWrite 0x008 v s).stage = Vector.replicate 64 0)

/-- 10_state R40: the result of a command depends on its snapshot and the parameters, and on nothing
else; a write of the HOST leaves the pending command as it was latched. -/
def Obligations.ResultDependsOnSnapshotOnly : Prop :=
  (∀ (i : Instr) (cfg : Config) (k : Snapshot), ∃ r : Result, ∀ s : State,
    s.cfg = cfg → s.pending = some ⟨some i, k⟩ → exec i s = .next (finish r s))
  ∧ (∀ (s : State) (p : Pending) (off : Offset) (v : Word), s.pending = some p →
    (busWrite off v s).pending = some p)

/-- 60_exceptions R202: the errors each command can end with. -/
def Obligations.PossibleErrorsOfEachCommand : Prop :=
  ∀ (i : Instr) (s t : State), exec i s = .next t →
    match i with
    | .nop | .step => t.err = .none
    | .loadHex => t.err = .none ∨ t.err = .validation
    | .loadRaw | .b32Enc => t.err = .none ∨ t.err = .length
    | .genS | .genT => t.err = .none ∨ t.err = .notProvisioned
    | .verS | .verT => t.err = .none ∨ t.err = .notProvisioned ∨ t.err = .input

/-- 60_exceptions R204 (with 41_base32 R103 for B32ENC, log 12): an error is precise. -/
def Obligations.ErrorsArePrecise : Prop :=
  ∀ (i : Instr) (s t : State), exec i s = .next t → t.err ≠ .none →
    t.secret = s.secret ∧ t.seedValid = s.seedValid
    ∧ match i with
      | .genS | .genT => t = { s.completed t.err with code := 0, codeA := Vector.replicate 6 0 }
      | .b32Enc => t = { s.completed t.err with b32Out := Vector.replicate 104 0, b32OutLen := 0 }
      | _ => t = s.completed t.err

/-! ### Rules of the whole machine -/

/-- The invariant holds right after reset. -/
def Obligations.InvariantHoldsAtReset : Prop := ∀ c : Config, Inv (State.resetOf c)

/-- Every step keeps the invariant. -/
def Obligations.StepKeepsTheInvariant : Prop :=
  ∀ s t : State, Inv s → step s = .next t → Inv t

/-- 00_scope R6: the parameters are fixed for the life of the hardware. -/
def Obligations.ParametersNeverChange : Prop :=
  ∀ (n : Nat) (s t : State), core.run n s = .next t → t.cfg = s.cfg

/-- 70_reset R220: reset gives every register its reset value, clears the secret slot and abandons a
pending command, and it is the only way SEED_VALID returns to 0. (The zeros of SECRET are R220's own; log 8
is about the freedom that R39 gives beside them.) -/
def Obligations.ResetSetsEveryField : Prop :=
  (∀ s : State, s.resetNext = true →
    ∃ t, step s = .next t ∧ t.pending = none ∧ t.seedValid = false
      ∧ t.secret = Vector.replicate 32 0 ∧ t.cfg = s.cfg
      ∧ busRead 0x000 t = 0x544F5450 ∧ busRead 0x004 t = busRead 0x004 s ∧ busRead 0x010 t = 1
      ∧ (∀ off : Offset, off ≠ 0x000 → off ≠ 0x004 → off ≠ 0x010 → busRead off t = 0)
      ∧ complete t = .next t)
  ∧ (∀ s t : State, step s = .next t → s.seedValid = true → t.seedValid = false → s.resetNext = true)

/-- 10_state R39: only a successful load writes the secret slot, and only reset clears SEED_VALID. -/
def Obligations.SecretSlotChangesOnlyByLoadOrReset : Prop :=
  ∀ s t : State, step s = .next t → s.resetNext = false →
    (t.secret ≠ s.secret ∨ t.seedValid ≠ s.seedValid →
      s.engineNext = true ∧ t.err = .none ∧ t.seedValid = true
      ∧ ∃ k, s.pending = some ⟨some .loadHex, k⟩ ∨ s.pending = some ⟨some .loadRaw, k⟩)
    ∧ (s.seedValid = true → t.seedValid = true)

/-- 10_state R42, 70_reset R223, R224: the results change only by a completion or by reset, so they stand
while a command is pending and while the block is idle. -/
def Obligations.ResultsChangeOnlyByCompletion : Prop :=
  ∀ s t : State, step s = .next t → s.resetNext = false →
    (s.engineNext = false ∨ s.pending = none) → SameResults s t

/-- 60_exceptions R205: OVR is sticky. -/
def Obligations.OverrunIsSticky : Prop :=
  ∀ s t : State, step s = .next t → s.ovr = true → s.resetNext = false →
    (∀ v rest, s.schedule = .host (.write 0x00C v) :: rest → v.getLsbD 4 = false) → t.ovr = true

/-- 60_exceptions R207, 10_state R39, R40: no register returns the secret, in an idle block or a busy one,
or a pending snapshot. -/
def Obligations.NoRegisterReadsTheSecret : Prop :=
  (∀ (off : Offset) (s : State) (key : Vector Byte 32),
    busRead off { s with secret := key } = busRead off s)
  ∧ (∀ (off : Offset) (s : State) (key : Vector Byte 32) (p q : Pending), s.pending = some p →
    busRead off { s with secret := key, pending := some q } = busRead off s)

/-- 10_state R39, 93_implementation_defined I5: over every run, the HOST learns nothing of what SECRET
held while SEED_VALID was 0: two states that differ only there answer the same reads for ever. -/
def Obligations.UnloadedSecretIsUnobservable : Prop :=
  ∀ (n : Nat) (s t s' t' : State), SameUntilLoaded s t →
    core.run n s = .next s' → core.run n t = .next t' →
    SameUntilLoaded s' t' ∧ s'.replies = t'.replies

/-! ### Functions -/

/-- 41_base32 R100, R56: the rolling buffer computes the closed form. -/
def Obligations.B32RollingBufferIsClosedForm : Prop := ∀ s : List Byte, b32Loop s 0 0 = b32ClosedForm s

/-- 41_base32 R101: padding. -/
def Obligations.B32PaddingIsTheFewestToEight : Prop :=
  ∀ out : List Byte, b32Padded out .noPad = out
    ∧ ∃ n, b32Padded out .pad = out ++ List.replicate n 0x3D ∧ (out.length + n) % 8 = 0
      ∧ ∀ m, (out.length + m) % 8 = 0 → n ≤ m

/-- 41_base32 R102: output lengths. -/
def Obligations.B32OutputLengths : Prop :=
  ∀ s : List Byte, (b32 s .noPad).length = (8 * s.length + 4) / 5
    ∧ (b32 s .pad).length = 8 * ((s.length + 4) / 5)

/-- 41_base32 R104: the encoder is injective on inputs of one length, and uses the alphabet only. -/
def Obligations.B32IsInjectiveOverItsAlphabet : Prop :=
  ∀ (p : B32Pad) (s t : List Byte),
    (s.length = t.length → b32 s p = b32 t p → s = t)
    ∧ ∀ ch ∈ b32 s p, (0x41 ≤ ch.toNat ∧ ch.toNat ≤ 0x5A) ∨ (0x32 ≤ ch.toNat ∧ ch.toNat ≤ 0x37)
        ∨ (p = .pad ∧ ch = 0x3D)

/-- 44_totp R161: the HMAC key in each mode, with its length. -/
def Obligations.HmacKeyOfEachMode : Prop :=
  ∀ (k : Vector Byte 32) (p : B32Pad),
    hmacKey ⟨.raw, p⟩ k = k.toList ∧ (hmacKey ⟨.raw, p⟩ k).length = 32
    ∧ hmacKey ⟨.b32Ascii, p⟩ k = b32 k.toList p
    ∧ (hmacKey ⟨.b32Ascii, .pad⟩ k).length = 56 ∧ (hmacKey ⟨.b32Ascii, .noPad⟩ k).length = 52
    ∧ Config.default.keyMode = .raw

/-- 43_sha1_hmac R131: the padded message. -/
def Obligations.Sha1PaddingFillsBlocks : Prop :=
  ∀ m : List Byte, ∃ z, sha1Pad m = m ++ [0x80] ++ List.replicate z 0 ++ (be 8 (8 * m.length)).toList
    ∧ (m.length + 1 + z + 8) % 64 = 0 ∧ (∀ y, (m.length + 1 + y + 8) % 64 = 0 → z ≤ y)
    ∧ (sha1Pad m).length % 64 = 0

/-- 43_sha1_hmac R132: the message schedule. -/
def Obligations.Sha1ScheduleRecurrence : Prop :=
  ∀ p : List Byte, p.length = 64 → ∃ w : Vector Word 80, messageSchedule p = w.toList
    ∧ (∀ t : Fin 16, w[t.val].toNat = fromBe ((p.drop (4 * t.val)).take 4))
    ∧ (∀ t : Fin 64, w[t.val + 16]
        = (w[t.val + 13] ^^^ w[t.val + 8] ^^^ w[t.val + 2] ^^^ w[t.val]).rotateLeft 1)

/-- 43_sha1_hmac R133: in Ch and Maj the exclusive or may be an inclusive one. -/
def Obligations.Sha1RoundFunctionsWithOr : Prop :=
  ∀ b c d : Word, ch b c d = (b &&& c) ||| (~~~b &&& d)
    ∧ maj b c d = (b &&& c) ||| (b &&& d) ||| (c &&& d)

/-- 43_sha1_hmac R138: a key of at most 64 bytes and the same key extended with zero bytes up to 64 give
the same HMAC; a longer key is hashed first. -/
def Obligations.HmacBlockKey : Prop :=
  (∀ (key m : List Byte) (n : Nat), key.length + n ≤ 64 →
    hmac (key ++ List.replicate n 0) m = hmac key m)
  ∧ (∀ key m : List Byte, 64 < key.length → hmac key m = hmac (sha1 key).toList m)

/-- 43_sha1_hmac R141, R142: the dynamic truncation is 31 bits, read big-endian at the offset. -/
def Obligations.TruncationReadsThirtyOneBits : Prop :=
  ∀ hs : Vector Byte 20, ∃ off : Fin 16, off.val = hs[19].toNat % 16
    ∧ truncate hs = fromBe [hs[off.val], hs[off.val + 1], hs[off.val + 2], hs[off.val + 3]] % 2 ^ 31
    ∧ truncate hs < 2 ^ 31

/-- 20_memory R55: the HMAC message is the counter, most significant byte first. -/
def Obligations.CounterMessageIsBigEndian : Prop :=
  ∀ (key : List Byte) (c : Counter), ∃ msg : Vector Byte 8,
    (∀ i : Fin 8, msg[i] = c.extractLsb' (56 - 8 * i.val) 8) ∧ fromBe msg.toList = c.toNat
    ∧ hotpHash key c = hmac key msg.toList

/-- 44_totp R167, R169: six digits determine the value, so comparing texts is comparing numbers. -/
def Obligations.DigitsDetermineTheValue : Prop :=
  ∀ (v : Nat) (q : Vector Byte 6), v < 1000000 →
    (∀ i : Fin 6, 0x30 ≤ q[i].toNat ∧ q[i].toNat ≤ 0x39) →
    (digits v = q ↔ v = (q[0].toNat - 0x30) * 100000 + (q[1].toNat - 0x30) * 10000
      + (q[2].toNat - 0x30) * 1000 + (q[3].toNat - 0x30) * 100 + (q[4].toNat - 0x30) * 10
      + (q[5].toNat - 0x30))

/-- 44_totp R168: the window is clipped to the counters there are, and has 2w + 1 members away from the
ends. -/
def Obligations.WindowIsClippedNotWrapped : Prop :=
  ∀ (c : Counter) (w : BitVec 8),
    (∀ x : Counter, x ∈ windowCounters c w.toNat ↔
      (c.toNat ≤ x.toNat + w.toNat ∧ x.toNat ≤ c.toNat + w.toNat))
    ∧ (windowCounters c w.toNat).Nodup
    ∧ (w.toNat ≤ c.toNat → c.toNat + w.toNat < 2 ^ 64 →
      (windowCounters c w.toNat).length = 2 * w.toNat + 1)

/-- 30_encoding R79: WR64 writes both halves of its input, WRSTR writes the text into STAGE or CAND from
byte 0, its last word zero-padded, and leaves every word beyond it, and WRHEX writes bytes into STAGE the
same way. The text is no longer than its buffer: the rule is silent beyond that (log 14). -/
def Obligations.HostSequenceWritesLand : Prop :=
  (∀ (s : State) (v : Counter), s.schedule = [] →
    core.run 2 (s.withSequence [.wr64 .time v]) = .next { s with timeIn := v }
      ∧ core.run 2 (s.withSequence [.wr64 .step v]) = .next { s with stepIn := v })
  ∧ (∀ (s : State) (text : List Byte), s.schedule = [] → text.length ≤ 64 → ∃ b : Vector Byte 64,
    core.run ((text.length + 3) / 4) (s.withSequence [.wrStr .stage text]) = .next { s with stage := b }
      ∧ core.run ((text.length + 3) / 4) (s.withSequence [.wrHex text]) = .next { s with stage := b }
      ∧ ∀ i : Fin 64, b[i] = if h : i.val < text.length then text[i.val]
          else if i.val / 4 < (text.length + 3) / 4 then 0 else s.stage[i])
  ∧ (∀ (s : State) (text : List Byte), s.schedule = [] → text.length ≤ 8 → ∃ b : Vector Byte 8,
    core.run ((text.length + 3) / 4) (s.withSequence [.wrStr .cand text]) = .next { s with cand := b }
      ∧ ∀ i : Fin 8, b[i] = if h : i.val < text.length then text[i.val]
          else if i.val / 4 < (text.length + 3) / 4 then 0 else s.cand[i])

/-- 20_memory R50: the block sees the offset of a system address within its window at BASE, and no
other (`BASE` is the model's opaque constant, log 5). -/
def Obligations.WindowSitsAtBase : Prop :=
  (∀ off : Offset, offsetOfAddress (systemAddress off) = some off)
  ∧ ∀ (a : Nat) (off : Offset), offsetOfAddress a = some off → a = Platform.base + off.toNat
end

