-- ==== Sys2Proof/Laws/Base32.lean ====
section
/-! SUPPORT. The inner loop of the Base32 encoder, said once: which characters it emits and what it leaves
in the buffer. -/

namespace Sys2Proof.Machine

theorem b32Drain_of_lt {n : Nat} (buf : Nat) (h : n < 5) : b32Drain buf n = ([], buf, n) := by
  unfold b32Drain
  split
  · omega
  · rfl

theorem b32Drain_add_five (buf n : Nat) :
    b32Drain buf (n + 5) =
      (alphabet ((buf >>> n) &&& 31) :: (b32Drain (buf % 2 ^ n) n).1, (b32Drain (buf % 2 ^ n) n).2) :=
  rfl

theorem and_thirty_one (x : Nat) : x &&& 31 = x % 32 := Nat.and_two_pow_sub_one_eq_mod x 5

/-- The inner loop emits the n div 5 leading groups of an n-bit buffer and leaves its n mod 5 low
bits. -/
theorem b32Drain_eq {n buf : Nat} (h : buf < 2 ^ n) :
    b32Drain buf n =
      ((List.range (n / 5)).map fun j => alphabet (buf / 2 ^ (n - 5 * (j + 1)) % 32),
        buf % 2 ^ (n % 5), n % 5) := by
  induction n using Nat.strongRecOn generalizing buf with
  | _ n ih =>
    by_cases h5 : n < 5
    · have h1 : n / 5 = 0 := by omega
      have h2 : n % 5 = n := by omega
      rw [b32Drain_of_lt _ h5, h1, h2, Nat.mod_eq_of_lt h]
      rfl
    · obtain ⟨m, rfl⟩ : ∃ m, n = m + 5 := ⟨n - 5, by omega⟩
      have e : (m + 5) / 5 = m / 5 + 1 := by omega
      rw [b32Drain_add_five, ih m (by omega) (Nat.mod_lt _ (by positivity)), e,
        List.range_succ_eq_map, Nat.add_mod_right]
      simp only [List.map_cons, List.map_map, and_thirty_one, Nat.shiftRight_eq_div_pow]
      congr 1
      · congr 1
        apply List.map_congr_left
        intro j hj
        simp only [List.mem_range] at hj
        have e1 : m + 5 - 5 * (j + 1 + 1) = m - 5 * (j + 1) := by omega
        have e2 : m = m - 5 * (j + 1) + 5 * (j + 1) := by omega
        have e3 : (2 : Nat) ^ (5 * (j + 1)) = 32 * 2 ^ (5 * j) := by
          rw [Nat.mul_add, pow_add]; ring
        simp only [Function.comp, Nat.succ_eq_add_one, e1]
        generalize m - 5 * (j + 1) = q at e2 ⊢
        rw [e2, pow_add, Nat.mod_mul_right_div_self, e3, Nat.mod_mul_right_mod]
      · rw [Nat.mod_mod_of_dvd]
        exact pow_dvd_pow 2 (Nat.mod_le _ _)

theorem alphabet_injective (a b : Fin 32) (h : alphabet a = alphabet b) : a = b := by
  revert a b; decide

end Sys2Proof.Machine
end

