-- ==== Sys2Proof/Laws/State.lean ====
section
/-! SUPPORT. One lemma per field of State for each named update, so that no proof unfolds a record
update. -/

namespace Sys2Proof.Machine

/-! ### A field write and a list of them -/

@[simp] theorem FieldWrite.apply_cfg (w : FieldWrite) (s : State) : (w.apply s).cfg = s.cfg := by
  cases w <;> rfl

@[simp] theorem FieldWrite.apply_done (w : FieldWrite) (s : State) : (w.apply s).done = s.done := by
  cases w <;> rfl

@[simp] theorem FieldWrite.apply_ovr (w : FieldWrite) (s : State) : (w.apply s).ovr = s.ovr := by
  cases w <;> rfl

@[simp] theorem FieldWrite.apply_err (w : FieldWrite) (s : State) : (w.apply s).err = s.err := by
  cases w <;> rfl

@[simp] theorem FieldWrite.apply_window (w : FieldWrite) (s : State) : (w.apply s).window = s.window := by
  cases w <;> rfl

@[simp] theorem FieldWrite.apply_slen (w : FieldWrite) (s : State) : (w.apply s).slen = s.slen := by
  cases w <;> rfl

@[simp] theorem FieldWrite.apply_candLen (w : FieldWrite) (s : State) : (w.apply s).candLen = s.candLen := by
  cases w <;> rfl

@[simp] theorem FieldWrite.apply_cand (w : FieldWrite) (s : State) : (w.apply s).cand = s.cand := by
  cases w <;> rfl

@[simp] theorem FieldWrite.apply_timeIn (w : FieldWrite) (s : State) : (w.apply s).timeIn = s.timeIn := by
  cases w <;> rfl

@[simp] theorem FieldWrite.apply_stepIn (w : FieldWrite) (s : State) : (w.apply s).stepIn = s.stepIn := by
  cases w <;> rfl

@[simp] theorem FieldWrite.apply_stage (w : FieldWrite) (s : State) : (w.apply s).stage = s.stage := by
  cases w <;> rfl

@[simp] theorem FieldWrite.apply_pending (w : FieldWrite) (s : State) : (w.apply s).pending = s.pending := by
  cases w <;> rfl

@[simp] theorem FieldWrite.apply_schedule (w : FieldWrite) (s : State) : (w.apply s).schedule = s.schedule := by
  cases w <;> rfl

@[simp] theorem FieldWrite.apply_replies (w : FieldWrite) (s : State) : (w.apply s).replies = s.replies := by
  cases w <;> rfl

@[simp] theorem applyWrites_cfg (ws : List FieldWrite) (s : State) : (applyWrites ws s).cfg = s.cfg := by
  induction ws generalizing s with
  | nil => rfl
  | cons w ws ih => exact (ih _).trans (w.apply_cfg s)

@[simp] theorem applyWrites_done (ws : List FieldWrite) (s : State) : (applyWrites ws s).done = s.done := by
  induction ws generalizing s with
  | nil => rfl
  | cons w ws ih => exact (ih _).trans (w.apply_done s)

@[simp] theorem applyWrites_ovr (ws : List FieldWrite) (s : State) : (applyWrites ws s).ovr = s.ovr := by
  induction ws generalizing s with
  | nil => rfl
  | cons w ws ih => exact (ih _).trans (w.apply_ovr s)

@[simp] theorem applyWrites_err (ws : List FieldWrite) (s : State) : (applyWrites ws s).err = s.err := by
  induction ws generalizing s with
  | nil => rfl
  | cons w ws ih => exact (ih _).trans (w.apply_err s)

@[simp] theorem applyWrites_window (ws : List FieldWrite) (s : State) : (applyWrites ws s).window = s.window := by
  induction ws generalizing s with
  | nil => rfl
  | cons w ws ih => exact (ih _).trans (w.apply_window s)

@[simp] theorem applyWrites_slen (ws : List FieldWrite) (s : State) : (applyWrites ws s).slen = s.slen := by
  induction ws generalizing s with
  | nil => rfl
  | cons w ws ih => exact (ih _).trans (w.apply_slen s)

@[simp] theorem applyWrites_candLen (ws : List FieldWrite) (s : State) : (applyWrites ws s).candLen = s.candLen := by
  induction ws generalizing s with
  | nil => rfl
  | cons w ws ih => exact (ih _).trans (w.apply_candLen s)

@[simp] theorem applyWrites_cand (ws : List FieldWrite) (s : State) : (applyWrites ws s).cand = s.cand := by
  induction ws generalizing s with
  | nil => rfl
  | cons w ws ih => exact (ih _).trans (w.apply_cand s)

@[simp] theorem applyWrites_timeIn (ws : List FieldWrite) (s : State) : (applyWrites ws s).timeIn = s.timeIn := by
  induction ws generalizing s with
  | nil => rfl
  | cons w ws ih => exact (ih _).trans (w.apply_timeIn s)

@[simp] theorem applyWrites_stepIn (ws : List FieldWrite) (s : State) : (applyWrites ws s).stepIn = s.stepIn := by
  induction ws generalizing s with
  | nil => rfl
  | cons w ws ih => exact (ih _).trans (w.apply_stepIn s)

@[simp] theorem applyWrites_stage (ws : List FieldWrite) (s : State) : (applyWrites ws s).stage = s.stage := by
  induction ws generalizing s with
  | nil => rfl
  | cons w ws ih => exact (ih _).trans (w.apply_stage s)

@[simp] theorem applyWrites_pending (ws : List FieldWrite) (s : State) : (applyWrites ws s).pending = s.pending := by
  induction ws generalizing s with
  | nil => rfl
  | cons w ws ih => exact (ih _).trans (w.apply_pending s)

@[simp] theorem applyWrites_schedule (ws : List FieldWrite) (s : State) : (applyWrites ws s).schedule = s.schedule := by
  induction ws generalizing s with
  | nil => rfl
  | cons w ws ih => exact (ih _).trans (w.apply_schedule s)

@[simp] theorem applyWrites_replies (ws : List FieldWrite) (s : State) : (applyWrites ws s).replies = s.replies := by
  induction ws generalizing s with
  | nil => rfl
  | cons w ws ih => exact (ih _).trans (w.apply_replies s)

@[simp] theorem applyWrites_nil (s : State) : applyWrites [] s = s := rfl

@[simp] theorem applyWrites_cons (w : FieldWrite) (ws : List FieldWrite) (s : State) :
    applyWrites (w :: ws) s = applyWrites ws (w.apply s) := rfl

/-! ### finish -/

@[simp] theorem finish_cfg (r : Result) (s : State) : (finish r s).cfg = s.cfg :=
  applyWrites_cfg r.writes _

@[simp] theorem finish_done (r : Result) (s : State) : (finish r s).done = true := rfl

@[simp] theorem finish_matchFlag (r : Result) (s : State) :
    (finish r s).matchFlag = (applyWrites r.writes { s with matchFlag := false }).matchFlag := rfl

@[simp] theorem finish_ovr (r : Result) (s : State) : (finish r s).ovr = s.ovr :=
  applyWrites_ovr r.writes _

@[simp] theorem finish_err (r : Result) (s : State) : (finish r s).err = r.err := rfl

@[simp] theorem finish_window (r : Result) (s : State) : (finish r s).window = s.window :=
  applyWrites_window r.writes _

@[simp] theorem finish_slen (r : Result) (s : State) : (finish r s).slen = s.slen :=
  applyWrites_slen r.writes _

@[simp] theorem finish_candLen (r : Result) (s : State) : (finish r s).candLen = s.candLen :=
  applyWrites_candLen r.writes _

@[simp] theorem finish_cand (r : Result) (s : State) : (finish r s).cand = s.cand :=
  applyWrites_cand r.writes _

@[simp] theorem finish_timeIn (r : Result) (s : State) : (finish r s).timeIn = s.timeIn :=
  applyWrites_timeIn r.writes _

@[simp] theorem finish_stepIn (r : Result) (s : State) : (finish r s).stepIn = s.stepIn :=
  applyWrites_stepIn r.writes _

@[simp] theorem finish_stage (r : Result) (s : State) : (finish r s).stage = s.stage :=
  applyWrites_stage r.writes _

@[simp] theorem finish_code (r : Result) (s : State) :
    (finish r s).code = (applyWrites r.writes { s with matchFlag := false }).code := rfl

@[simp] theorem finish_codeA (r : Result) (s : State) :
    (finish r s).codeA = (applyWrites r.writes { s with matchFlag := false }).codeA := rfl

@[simp] theorem finish_remain (r : Result) (s : State) :
    (finish r s).remain = (applyWrites r.writes { s with matchFlag := false }).remain := rfl

@[simp] theorem finish_stepOut (r : Result) (s : State) :
    (finish r s).stepOut = (applyWrites r.writes { s with matchFlag := false }).stepOut := rfl

@[simp] theorem finish_b32OutLen (r : Result) (s : State) :
    (finish r s).b32OutLen = (applyWrites r.writes { s with matchFlag := false }).b32OutLen := rfl

@[simp] theorem finish_b32Out (r : Result) (s : State) :
    (finish r s).b32Out = (applyWrites r.writes { s with matchFlag := false }).b32Out := rfl

@[simp] theorem finish_secret (r : Result) (s : State) :
    (finish r s).secret = (applyWrites r.writes { s with matchFlag := false }).secret := rfl

@[simp] theorem finish_seedValid (r : Result) (s : State) :
    (finish r s).seedValid = (applyWrites r.writes { s with matchFlag := false }).seedValid := rfl

@[simp] theorem finish_pending (r : Result) (s : State) : (finish r s).pending = none := rfl

@[simp] theorem finish_schedule (r : Result) (s : State) : (finish r s).schedule = s.schedule :=
  applyWrites_schedule r.writes _

@[simp] theorem finish_replies (r : Result) (s : State) : (finish r s).replies = s.replies :=
  applyWrites_replies r.writes _

@[simp] theorem finish_no_writes (e : ErrCode) (s : State) :
    finish { err := e, writes := [] } s = s.completed e := rfl

/-! ### completed -/

@[simp] theorem State.completed_cfg (s : State) (e : ErrCode) : (s.completed e).cfg = s.cfg := rfl

@[simp] theorem State.completed_done (s : State) (e : ErrCode) : (s.completed e).done = true := rfl

@[simp] theorem State.completed_matchFlag (s : State) (e : ErrCode) : (s.completed e).matchFlag = false := rfl

@[simp] theorem State.completed_ovr (s : State) (e : ErrCode) : (s.completed e).ovr = s.ovr := rfl

@[simp] theorem State.completed_err (s : State) (e : ErrCode) : (s.completed e).err = e := rfl

@[simp] theorem State.completed_window (s : State) (e : ErrCode) : (s.completed e).window = s.window := rfl

@[simp] theorem State.completed_slen (s : State) (e : ErrCode) : (s.completed e).slen = s.slen := rfl

@[simp] theorem State.completed_candLen (s : State) (e : ErrCode) : (s.completed e).candLen = s.candLen := rfl

@[simp] theorem State.completed_cand (s : State) (e : ErrCode) : (s.completed e).cand = s.cand := rfl

@[simp] theorem State.completed_timeIn (s : State) (e : ErrCode) : (s.completed e).timeIn = s.timeIn := rfl

@[simp] theorem State.completed_stepIn (s : State) (e : ErrCode) : (s.completed e).stepIn = s.stepIn := rfl

@[simp] theorem State.completed_stage (s : State) (e : ErrCode) : (s.completed e).stage = s.stage := rfl

@[simp] theorem State.completed_code (s : State) (e : ErrCode) : (s.completed e).code = s.code := rfl

@[simp] theorem State.completed_codeA (s : State) (e : ErrCode) : (s.completed e).codeA = s.codeA := rfl

@[simp] theorem State.completed_remain (s : State) (e : ErrCode) : (s.completed e).remain = s.remain := rfl

@[simp] theorem State.completed_stepOut (s : State) (e : ErrCode) : (s.completed e).stepOut = s.stepOut := rfl

@[simp] theorem State.completed_b32OutLen (s : State) (e : ErrCode) : (s.completed e).b32OutLen = s.b32OutLen := rfl

@[simp] theorem State.completed_b32Out (s : State) (e : ErrCode) : (s.completed e).b32Out = s.b32Out := rfl

@[simp] theorem State.completed_secret (s : State) (e : ErrCode) : (s.completed e).secret = s.secret := rfl

@[simp] theorem State.completed_seedValid (s : State) (e : ErrCode) : (s.completed e).seedValid = s.seedValid := rfl

@[simp] theorem State.completed_pending (s : State) (e : ErrCode) : (s.completed e).pending = none := rfl

@[simp] theorem State.completed_schedule (s : State) (e : ErrCode) : (s.completed e).schedule = s.schedule := rfl

@[simp] theorem State.completed_replies (s : State) (e : ErrCode) : (s.completed e).replies = s.replies := rfl

/-! ### withSchedule and withReply -/

@[simp] theorem State.withSchedule_cfg (s : State) (ts : List Turn) : (s.withSchedule ts).cfg = s.cfg := rfl

@[simp] theorem State.withSchedule_done (s : State) (ts : List Turn) : (s.withSchedule ts).done = s.done := rfl

@[simp] theorem State.withSchedule_matchFlag (s : State) (ts : List Turn) : (s.withSchedule ts).matchFlag = s.matchFlag := rfl

@[simp] theorem State.withSchedule_ovr (s : State) (ts : List Turn) : (s.withSchedule ts).ovr = s.ovr := rfl

@[simp] theorem State.withSchedule_err (s : State) (ts : List Turn) : (s.withSchedule ts).err = s.err := rfl

@[simp] theorem State.withSchedule_window (s : State) (ts : List Turn) : (s.withSchedule ts).window = s.window := rfl

@[simp] theorem State.withSchedule_slen (s : State) (ts : List Turn) : (s.withSchedule ts).slen = s.slen := rfl

@[simp] theorem State.withSchedule_candLen (s : State) (ts : List Turn) : (s.withSchedule ts).candLen = s.candLen := rfl

@[simp] theorem State.withSchedule_cand (s : State) (ts : List Turn) : (s.withSchedule ts).cand = s.cand := rfl

@[simp] theorem State.withSchedule_timeIn (s : State) (ts : List Turn) : (s.withSchedule ts).timeIn = s.timeIn := rfl

@[simp] theorem State.withSchedule_stepIn (s : State) (ts : List Turn) : (s.withSchedule ts).stepIn = s.stepIn := rfl

@[simp] theorem State.withSchedule_stage (s : State) (ts : List Turn) : (s.withSchedule ts).stage = s.stage := rfl

@[simp] theorem State.withSchedule_code (s : State) (ts : List Turn) : (s.withSchedule ts).code = s.code := rfl

@[simp] theorem State.withSchedule_codeA (s : State) (ts : List Turn) : (s.withSchedule ts).codeA = s.codeA := rfl

@[simp] theorem State.withSchedule_remain (s : State) (ts : List Turn) : (s.withSchedule ts).remain = s.remain := rfl

@[simp] theorem State.withSchedule_stepOut (s : State) (ts : List Turn) : (s.withSchedule ts).stepOut = s.stepOut := rfl

@[simp] theorem State.withSchedule_b32OutLen (s : State) (ts : List Turn) : (s.withSchedule ts).b32OutLen = s.b32OutLen := rfl

@[simp] theorem State.withSchedule_b32Out (s : State) (ts : List Turn) : (s.withSchedule ts).b32Out = s.b32Out := rfl

@[simp] theorem State.withSchedule_secret (s : State) (ts : List Turn) : (s.withSchedule ts).secret = s.secret := rfl

@[simp] theorem State.withSchedule_seedValid (s : State) (ts : List Turn) : (s.withSchedule ts).seedValid = s.seedValid := rfl

@[simp] theorem State.withSchedule_pending (s : State) (ts : List Turn) : (s.withSchedule ts).pending = s.pending := rfl

@[simp] theorem State.withSchedule_schedule (s : State) (ts : List Turn) : (s.withSchedule ts).schedule = ts := rfl

@[simp] theorem State.withSchedule_replies (s : State) (ts : List Turn) : (s.withSchedule ts).replies = s.replies := rfl

@[simp] theorem State.withReply_cfg (s : State) (v : Word) : (s.withReply v).cfg = s.cfg := rfl

@[simp] theorem State.withReply_done (s : State) (v : Word) : (s.withReply v).done = s.done := rfl

@[simp] theorem State.withReply_matchFlag (s : State) (v : Word) : (s.withReply v).matchFlag = s.matchFlag := rfl

@[simp] theorem State.withReply_ovr (s : State) (v : Word) : (s.withReply v).ovr = s.ovr := rfl

@[simp] theorem State.withReply_err (s : State) (v : Word) : (s.withReply v).err = s.err := rfl

@[simp] theorem State.withReply_window (s : State) (v : Word) : (s.withReply v).window = s.window := rfl

@[simp] theorem State.withReply_slen (s : State) (v : Word) : (s.withReply v).slen = s.slen := rfl

@[simp] theorem State.withReply_candLen (s : State) (v : Word) : (s.withReply v).candLen = s.candLen := rfl

@[simp] theorem State.withReply_cand (s : State) (v : Word) : (s.withReply v).cand = s.cand := rfl

@[simp] theorem State.withReply_timeIn (s : State) (v : Word) : (s.withReply v).timeIn = s.timeIn := rfl

@[simp] theorem State.withReply_stepIn (s : State) (v : Word) : (s.withReply v).stepIn = s.stepIn := rfl

@[simp] theorem State.withReply_stage (s : State) (v : Word) : (s.withReply v).stage = s.stage := rfl

@[simp] theorem State.withReply_code (s : State) (v : Word) : (s.withReply v).code = s.code := rfl

@[simp] theorem State.withReply_codeA (s : State) (v : Word) : (s.withReply v).codeA = s.codeA := rfl

@[simp] theorem State.withReply_remain (s : State) (v : Word) : (s.withReply v).remain = s.remain := rfl

@[simp] theorem State.withReply_stepOut (s : State) (v : Word) : (s.withReply v).stepOut = s.stepOut := rfl

@[simp] theorem State.withReply_b32OutLen (s : State) (v : Word) : (s.withReply v).b32OutLen = s.b32OutLen := rfl

@[simp] theorem State.withReply_b32Out (s : State) (v : Word) : (s.withReply v).b32Out = s.b32Out := rfl

@[simp] theorem State.withReply_secret (s : State) (v : Word) : (s.withReply v).secret = s.secret := rfl

@[simp] theorem State.withReply_seedValid (s : State) (v : Word) : (s.withReply v).seedValid = s.seedValid := rfl

@[simp] theorem State.withReply_pending (s : State) (v : Word) : (s.withReply v).pending = s.pending := rfl

@[simp] theorem State.withReply_schedule (s : State) (v : Word) : (s.withReply v).schedule = s.schedule := rfl

@[simp] theorem State.withReply_replies (s : State) (v : Word) : (s.withReply v).replies = s.replies ++ [v] := rfl

/-! ### resetOf and hostReset -/

@[simp] theorem State.resetOf_cfg (c : Config) : (State.resetOf c).cfg = c := rfl

@[simp] theorem State.resetOf_done (c : Config) : (State.resetOf c).done = false := rfl

@[simp] theorem State.resetOf_matchFlag (c : Config) : (State.resetOf c).matchFlag = false := rfl

@[simp] theorem State.resetOf_ovr (c : Config) : (State.resetOf c).ovr = false := rfl

@[simp] theorem State.resetOf_err (c : Config) : (State.resetOf c).err = .none := rfl

@[simp] theorem State.resetOf_window (c : Config) : (State.resetOf c).window = 1 := rfl

@[simp] theorem State.resetOf_slen (c : Config) : (State.resetOf c).slen = 0 := rfl

@[simp] theorem State.resetOf_candLen (c : Config) : (State.resetOf c).candLen = 0 := rfl

@[simp] theorem State.resetOf_cand (c : Config) : (State.resetOf c).cand = Vector.replicate 8 0 := rfl

@[simp] theorem State.resetOf_timeIn (c : Config) : (State.resetOf c).timeIn = 0 := rfl

@[simp] theorem State.resetOf_stepIn (c : Config) : (State.resetOf c).stepIn = 0 := rfl

@[simp] theorem State.resetOf_stage (c : Config) : (State.resetOf c).stage = Vector.replicate 64 0 := rfl

@[simp] theorem State.resetOf_code (c : Config) : (State.resetOf c).code = 0 := rfl

@[simp] theorem State.resetOf_codeA (c : Config) : (State.resetOf c).codeA = Vector.replicate 6 0 := rfl

@[simp] theorem State.resetOf_remain (c : Config) : (State.resetOf c).remain = 0 := rfl

@[simp] theorem State.resetOf_stepOut (c : Config) : (State.resetOf c).stepOut = 0 := rfl

@[simp] theorem State.resetOf_b32OutLen (c : Config) : (State.resetOf c).b32OutLen = 0 := rfl

@[simp] theorem State.resetOf_b32Out (c : Config) : (State.resetOf c).b32Out = Vector.replicate 104 0 := rfl

@[simp] theorem State.resetOf_secret (c : Config) : (State.resetOf c).secret = Vector.replicate 32 0 := rfl

@[simp] theorem State.resetOf_seedValid (c : Config) : (State.resetOf c).seedValid = false := rfl

@[simp] theorem State.resetOf_pending (c : Config) : (State.resetOf c).pending = none := rfl

@[simp] theorem State.resetOf_schedule (c : Config) : (State.resetOf c).schedule = [] := rfl

@[simp] theorem State.resetOf_replies (c : Config) : (State.resetOf c).replies = [] := rfl

@[simp] theorem hostReset_cfg (s : State) : (hostReset s).cfg = s.cfg := rfl

@[simp] theorem hostReset_done (s : State) : (hostReset s).done = (State.resetOf s.cfg).done := rfl

@[simp] theorem hostReset_matchFlag (s : State) : (hostReset s).matchFlag = (State.resetOf s.cfg).matchFlag := rfl

@[simp] theorem hostReset_ovr (s : State) : (hostReset s).ovr = (State.resetOf s.cfg).ovr := rfl

@[simp] theorem hostReset_err (s : State) : (hostReset s).err = (State.resetOf s.cfg).err := rfl

@[simp] theorem hostReset_window (s : State) : (hostReset s).window = (State.resetOf s.cfg).window := rfl

@[simp] theorem hostReset_slen (s : State) : (hostReset s).slen = (State.resetOf s.cfg).slen := rfl

@[simp] theorem hostReset_candLen (s : State) : (hostReset s).candLen = (State.resetOf s.cfg).candLen := rfl

@[simp] theorem hostReset_cand (s : State) : (hostReset s).cand = (State.resetOf s.cfg).cand := rfl

@[simp] theorem hostReset_timeIn (s : State) : (hostReset s).timeIn = (State.resetOf s.cfg).timeIn := rfl

@[simp] theorem hostReset_stepIn (s : State) : (hostReset s).stepIn = (State.resetOf s.cfg).stepIn := rfl

@[simp] theorem hostReset_stage (s : State) : (hostReset s).stage = (State.resetOf s.cfg).stage := rfl

@[simp] theorem hostReset_code (s : State) : (hostReset s).code = (State.resetOf s.cfg).code := rfl

@[simp] theorem hostReset_codeA (s : State) : (hostReset s).codeA = (State.resetOf s.cfg).codeA := rfl

@[simp] theorem hostReset_remain (s : State) : (hostReset s).remain = (State.resetOf s.cfg).remain := rfl

@[simp] theorem hostReset_stepOut (s : State) : (hostReset s).stepOut = (State.resetOf s.cfg).stepOut := rfl

@[simp] theorem hostReset_b32OutLen (s : State) : (hostReset s).b32OutLen = (State.resetOf s.cfg).b32OutLen := rfl

@[simp] theorem hostReset_b32Out (s : State) : (hostReset s).b32Out = (State.resetOf s.cfg).b32Out := rfl

@[simp] theorem hostReset_secret (s : State) : (hostReset s).secret = (State.resetOf s.cfg).secret := rfl

@[simp] theorem hostReset_seedValid (s : State) : (hostReset s).seedValid = (State.resetOf s.cfg).seedValid := rfl

@[simp] theorem hostReset_pending (s : State) : (hostReset s).pending = (State.resetOf s.cfg).pending := rfl

@[simp] theorem hostReset_schedule (s : State) : (hostReset s).schedule = s.schedule := rfl

@[simp] theorem hostReset_replies (s : State) : (hostReset s).replies = s.replies := rfl

/-! ### issue and writes to a register: the fields no write of the HOST changes -/

@[simp] theorem issue_cfg (v : Word) (s : State) : (issue v s).cfg = s.cfg := by
  unfold issue; split <;> rfl

@[simp] theorem issue_matchFlag (v : Word) (s : State) : (issue v s).matchFlag = s.matchFlag := by
  unfold issue; split <;> rfl

@[simp] theorem issue_err (v : Word) (s : State) : (issue v s).err = s.err := by
  unfold issue; split <;> rfl

@[simp] theorem issue_code (v : Word) (s : State) : (issue v s).code = s.code := by
  unfold issue; split <;> rfl

@[simp] theorem issue_codeA (v : Word) (s : State) : (issue v s).codeA = s.codeA := by
  unfold issue; split <;> rfl

@[simp] theorem issue_remain (v : Word) (s : State) : (issue v s).remain = s.remain := by
  unfold issue; split <;> rfl

@[simp] theorem issue_stepOut (v : Word) (s : State) : (issue v s).stepOut = s.stepOut := by
  unfold issue; split <;> rfl

@[simp] theorem issue_b32OutLen (v : Word) (s : State) : (issue v s).b32OutLen = s.b32OutLen := by
  unfold issue; split <;> rfl

@[simp] theorem issue_b32Out (v : Word) (s : State) : (issue v s).b32Out = s.b32Out := by
  unfold issue; split <;> rfl

@[simp] theorem issue_secret (v : Word) (s : State) : (issue v s).secret = s.secret := by
  unfold issue; split <;> rfl

@[simp] theorem issue_seedValid (v : Word) (s : State) : (issue v s).seedValid = s.seedValid := by
  unfold issue; split <;> rfl

@[simp] theorem issue_schedule (v : Word) (s : State) : (issue v s).schedule = s.schedule := by
  unfold issue; split <;> rfl

@[simp] theorem issue_replies (v : Word) (s : State) : (issue v s).replies = s.replies := by
  unfold issue; split <;> rfl

@[simp] theorem writeStatus_cfg (v : Word) (s : State) : (writeStatus v s).cfg = s.cfg := by
  unfold writeStatus; split <;> rfl

@[simp] theorem writeStatus_done (v : Word) (s : State) : (writeStatus v s).done = s.done := by
  unfold writeStatus; split <;> rfl

@[simp] theorem writeStatus_matchFlag (v : Word) (s : State) : (writeStatus v s).matchFlag = s.matchFlag := by
  unfold writeStatus; split <;> rfl

@[simp] theorem writeStatus_err (v : Word) (s : State) : (writeStatus v s).err = s.err := by
  unfold writeStatus; split <;> rfl

@[simp] theorem writeStatus_window (v : Word) (s : State) : (writeStatus v s).window = s.window := by
  unfold writeStatus; split <;> rfl

@[simp] theorem writeStatus_slen (v : Word) (s : State) : (writeStatus v s).slen = s.slen := by
  unfold writeStatus; split <;> rfl

@[simp] theorem writeStatus_candLen (v : Word) (s : State) : (writeStatus v s).candLen = s.candLen := by
  unfold writeStatus; split <;> rfl

@[simp] theorem writeStatus_cand (v : Word) (s : State) : (writeStatus v s).cand = s.cand := by
  unfold writeStatus; split <;> rfl

@[simp] theorem writeStatus_timeIn (v : Word) (s : State) : (writeStatus v s).timeIn = s.timeIn := by
  unfold writeStatus; split <;> rfl

@[simp] theorem writeStatus_stepIn (v : Word) (s : State) : (writeStatus v s).stepIn = s.stepIn := by
  unfold writeStatus; split <;> rfl

@[simp] theorem writeStatus_stage (v : Word) (s : State) : (writeStatus v s).stage = s.stage := by
  unfold writeStatus; split <;> rfl

@[simp] theorem writeStatus_code (v : Word) (s : State) : (writeStatus v s).code = s.code := by
  unfold writeStatus; split <;> rfl

@[simp] theorem writeStatus_codeA (v : Word) (s : State) : (writeStatus v s).codeA = s.codeA := by
  unfold writeStatus; split <;> rfl

@[simp] theorem writeStatus_remain (v : Word) (s : State) : (writeStatus v s).remain = s.remain := by
  unfold writeStatus; split <;> rfl

@[simp] theorem writeStatus_stepOut (v : Word) (s : State) : (writeStatus v s).stepOut = s.stepOut := by
  unfold writeStatus; split <;> rfl

@[simp] theorem writeStatus_b32OutLen (v : Word) (s : State) : (writeStatus v s).b32OutLen = s.b32OutLen := by
  unfold writeStatus; split <;> rfl

@[simp] theorem writeStatus_b32Out (v : Word) (s : State) : (writeStatus v s).b32Out = s.b32Out := by
  unfold writeStatus; split <;> rfl

@[simp] theorem writeStatus_secret (v : Word) (s : State) : (writeStatus v s).secret = s.secret := by
  unfold writeStatus; split <;> rfl

@[simp] theorem writeStatus_seedValid (v : Word) (s : State) : (writeStatus v s).seedValid = s.seedValid := by
  unfold writeStatus; split <;> rfl

@[simp] theorem writeStatus_pending (v : Word) (s : State) : (writeStatus v s).pending = s.pending := by
  unfold writeStatus; split <;> rfl

@[simp] theorem writeStatus_schedule (v : Word) (s : State) : (writeStatus v s).schedule = s.schedule := by
  unfold writeStatus; split <;> rfl

@[simp] theorem writeStatus_replies (v : Word) (s : State) : (writeStatus v s).replies = s.replies := by
  unfold writeStatus; split <;> rfl

@[simp] theorem writeReg_cfg (r : Reg) (v : Word) (s : State) : (writeReg r v s).cfg = s.cfg := by
  cases r <;> simp [writeReg]

@[simp] theorem writeReg_matchFlag (r : Reg) (v : Word) (s : State) : (writeReg r v s).matchFlag = s.matchFlag := by
  cases r <;> simp [writeReg]

@[simp] theorem writeReg_err (r : Reg) (v : Word) (s : State) : (writeReg r v s).err = s.err := by
  cases r <;> simp [writeReg]

@[simp] theorem writeReg_code (r : Reg) (v : Word) (s : State) : (writeReg r v s).code = s.code := by
  cases r <;> simp [writeReg]

@[simp] theorem writeReg_codeA (r : Reg) (v : Word) (s : State) : (writeReg r v s).codeA = s.codeA := by
  cases r <;> simp [writeReg]

@[simp] theorem writeReg_remain (r : Reg) (v : Word) (s : State) : (writeReg r v s).remain = s.remain := by
  cases r <;> simp [writeReg]

@[simp] theorem writeReg_stepOut (r : Reg) (v : Word) (s : State) : (writeReg r v s).stepOut = s.stepOut := by
  cases r <;> simp [writeReg]

@[simp] theorem writeReg_b32OutLen (r : Reg) (v : Word) (s : State) : (writeReg r v s).b32OutLen = s.b32OutLen := by
  cases r <;> simp [writeReg]

@[simp] theorem writeReg_b32Out (r : Reg) (v : Word) (s : State) : (writeReg r v s).b32Out = s.b32Out := by
  cases r <;> simp [writeReg]

@[simp] theorem writeReg_secret (r : Reg) (v : Word) (s : State) : (writeReg r v s).secret = s.secret := by
  cases r <;> simp [writeReg]

@[simp] theorem writeReg_seedValid (r : Reg) (v : Word) (s : State) : (writeReg r v s).seedValid = s.seedValid := by
  cases r <;> simp [writeReg]

@[simp] theorem writeReg_schedule (r : Reg) (v : Word) (s : State) : (writeReg r v s).schedule = s.schedule := by
  cases r <;> simp [writeReg]

@[simp] theorem writeReg_replies (r : Reg) (v : Word) (s : State) : (writeReg r v s).replies = s.replies := by
  cases r <;> simp [writeReg]

@[simp] theorem busWrite_cfg (off : Offset) (v : Word) (s : State) : (busWrite off v s).cfg = s.cfg := by
  unfold busWrite; split <;> simp

@[simp] theorem busWrite_matchFlag (off : Offset) (v : Word) (s : State) : (busWrite off v s).matchFlag = s.matchFlag := by
  unfold busWrite; split <;> simp

@[simp] theorem busWrite_err (off : Offset) (v : Word) (s : State) : (busWrite off v s).err = s.err := by
  unfold busWrite; split <;> simp

@[simp] theorem busWrite_code (off : Offset) (v : Word) (s : State) : (busWrite off v s).code = s.code := by
  unfold busWrite; split <;> simp

@[simp] theorem busWrite_codeA (off : Offset) (v : Word) (s : State) : (busWrite off v s).codeA = s.codeA := by
  unfold busWrite; split <;> simp

@[simp] theorem busWrite_remain (off : Offset) (v : Word) (s : State) : (busWrite off v s).remain = s.remain := by
  unfold busWrite; split <;> simp

@[simp] theorem busWrite_stepOut (off : Offset) (v : Word) (s : State) : (busWrite off v s).stepOut = s.stepOut := by
  unfold busWrite; split <;> simp

@[simp] theorem busWrite_b32OutLen (off : Offset) (v : Word) (s : State) : (busWrite off v s).b32OutLen = s.b32OutLen := by
  unfold busWrite; split <;> simp

@[simp] theorem busWrite_b32Out (off : Offset) (v : Word) (s : State) : (busWrite off v s).b32Out = s.b32Out := by
  unfold busWrite; split <;> simp

@[simp] theorem busWrite_secret (off : Offset) (v : Word) (s : State) : (busWrite off v s).secret = s.secret := by
  unfold busWrite; split <;> simp

@[simp] theorem busWrite_seedValid (off : Offset) (v : Word) (s : State) : (busWrite off v s).seedValid = s.seedValid := by
  unfold busWrite; split <;> simp

@[simp] theorem busWrite_schedule (off : Offset) (v : Word) (s : State) : (busWrite off v s).schedule = s.schedule := by
  unfold busWrite; split <;> simp

@[simp] theorem busWrite_replies (off : Offset) (v : Word) (s : State) : (busWrite off v s).replies = s.replies := by
  unfold busWrite; split <;> simp

end Sys2Proof.Machine
end

