-- ==== Sys2Proof/Laws/Ops.lean ====
section
/-! SUPPORT. What the shared operations can do, said once each: issue, completion, host writes and the
step. -/

namespace Sys2Proof.Machine

theorem State.withSchedule_of_eq {s : State} {ts : List Turn} (h : s.schedule = ts) :
    s.withSchedule ts = s := by
  subst h; rfl

/-! ### Operands -/

@[simp] theorem operands_of_pending {s : State} {p : Pending} (h : s.pending = some p) :
    s.operands = p.snap := by
  simp [State.operands, h]

/-! ### Issue -/

theorem issue_of_pending {s : State} {p : Pending} (v : Word) (h : s.pending = some p) :
    issue v s = { s with ovr := true } := by
  simp [issue, h]

theorem issue_of_idle {s : State} (v : Word) (h : s.pending = none) :
    issue v s =
      { s with
        pending := some { cmd := (decode v).toOption, snap := s.inputs }
        done := false
        stage := if clearsStage (decode v).toOption then Vector.replicate 64 0 else s.stage } := by
  simp [issue, h]

/-- A write of the HOST leaves the pending command as it is, or issues one in an idle block. -/
theorem writeReg_pending (r : Reg) (v : Word) (s : State) :
    (writeReg r v s).pending = s.pending ∨
      (s.pending = none ∧ r = .cmd ∧
        (writeReg r v s).pending = some { cmd := (decode v).toOption, snap := s.inputs }) := by
  cases r with
  | cmd =>
    cases h : s.pending with
    | none => exact .inr ⟨rfl, rfl, by simp only [writeReg, issue_of_idle v h]⟩
    | some p => exact .inl (by simp only [writeReg, issue_of_pending v h, h])
  | status => exact .inl (writeStatus_pending v s)
  | _ => exact .inl (by simp only [writeReg])

theorem busWrite_pending (off : Offset) (v : Word) (s : State) :
    (busWrite off v s).pending = s.pending ∨
      (s.pending = none ∧
        (busWrite off v s).pending = some { cmd := (decode v).toOption, snap := s.inputs }) := by
  unfold busWrite
  split
  · rcases writeReg_pending _ v s with h | ⟨h, -, h'⟩
    · exact .inl h
    · exact .inr ⟨h, h'⟩
  · exact .inl rfl

/-- DONE is kept by a write of the HOST, or cleared by an accepted issue. -/
theorem writeReg_done (r : Reg) (v : Word) (s : State) :
    (writeReg r v s).done = s.done ∨
      (s.pending = none ∧ (writeReg r v s).done = false) := by
  cases r with
  | cmd =>
    cases h : s.pending with
    | none => exact .inr ⟨rfl, by simp only [writeReg, issue_of_idle v h]⟩
    | some p => exact .inl (by simp only [writeReg, issue_of_pending v h])
  | status => exact .inl (writeStatus_done v s)
  | _ => exact .inl (by simp only [writeReg])

theorem busWrite_done (off : Offset) (v : Word) (s : State) :
    (busWrite off v s).done = s.done ∨
      (s.pending = none ∧ (busWrite off v s).done = false) := by
  unfold busWrite
  split
  · exact writeReg_done _ v s
  · exact .inl rfl

/-! ### Completion -/

/-- `Execute(d, snap)` of a legal command (10_state R41). -/
def execute (i : Instr) (cfg : Config) (k : Snapshot) : Result :=
  match i with
  | .nop     => nopResult
  | .loadHex => loadHexResult k
  | .loadRaw => loadRawResult k
  | .step    => stepResult k
  | .genS    => genResult false cfg k
  | .genT    => genResult true cfg k
  | .verS    => verResult false cfg k
  | .verT    => verResult true cfg k
  | .b32Enc  => b32EncResult cfg k

/-- The field writes of a command neither read nor write the pending command. -/
theorem applyWrites_withPending (ws : List FieldWrite) (p : Option Pending) (s : State) :
    applyWrites ws { s with pending := p } = { applyWrites ws s with pending := p } := by
  induction ws generalizing s with
  | nil => rfl
  | cons w ws ih =>
    simp only [applyWrites_cons]
    rw [← ih]
    cases w <;> rfl

theorem finish_withPending (r : Result) (p : Option Pending) (s : State) :
    finish r { s with pending := p } = finish r s := by
  have h := applyWrites_withPending r.writes p { s with matchFlag := false }
  simp only at h
  simp only [finish, h]

/-- Every meaning is `finish` of a function of the parameters and the operands. -/
theorem exec_eq_finish (i : Instr) (s : State) :
    exec i s = .next (finish (execute i s.cfg s.operands) s) := by
  cases i <;> rfl

theorem complete_of_idle {s : State} (h : s.pending = none) : complete s = .next s := by
  simp [complete, h]

theorem complete_of_legal {s : State} {i : Instr} {k : Snapshot}
    (h : s.pending = some ⟨some i, k⟩) : complete s = exec i s := by
  simp [complete, h]

theorem complete_of_illegal {s : State} {k : Snapshot} (h : s.pending = some ⟨none, k⟩) :
    complete s = .next (s.completed .illegal) := by
  simp [complete, h, illegalResult]

/-- What `Complete` can do. -/
theorem complete_cases (s : State) :
    (s.pending = none ∧ complete s = .next s) ∨
    (∃ i k, s.pending = some ⟨some i, k⟩ ∧ complete s = .next (finish (execute i s.cfg k) s)) ∨
    (∃ k, s.pending = some ⟨none, k⟩ ∧ complete s = .next (s.completed .illegal)) := by
  cases h : s.pending with
  | none => exact .inl ⟨rfl, complete_of_idle h⟩
  | some p =>
    obtain ⟨c, k⟩ := p
    cases c with
    | none => exact .inr (.inr ⟨k, rfl, complete_of_illegal h⟩)
    | some i =>
      refine .inr (.inl ⟨i, k, rfl, ?_⟩)
      rw [complete_of_legal h, exec_eq_finish, operands_of_pending h]

/-! ### The step -/

theorem step_of_empty {s : State} (h : s.schedule = []) : step s = complete s := by
  simp [step, h]

theorem step_of_engine {s : State} {rest : List Turn} (h : s.schedule = .engine :: rest) :
    step s = complete (s.withSchedule rest) := by
  simp [step, h]

theorem step_of_host {s : State} {a : HostAction} {rest : List Turn}
    (h : s.schedule = .host a :: rest) :
    step s = .next (hostStep a (s.withSchedule rest)) := by
  simp [step, h]

/-- What a step can do: the ENGINE's `Complete` or one action of the HOST, on the state with the turn
taken. -/
theorem step_cases {s t : State} (h : step s = .next t) :
    (∃ rest, s.engineNext = true ∧ complete (s.withSchedule rest) = .next t) ∨
    (∃ a rest, s.schedule = .host a :: rest ∧ t = hostStep a (s.withSchedule rest)) := by
  unfold step at h
  split at h
  · rename_i hs
    refine .inl ⟨[], by simp [State.engineNext, hs], ?_⟩
    rw [State.withSchedule_of_eq hs, h]
  · rename_i rest hs
    exact .inl ⟨rest, by simp [State.engineNext, hs], h⟩
  · rename_i a rest hs
    exact .inr ⟨a, rest, hs, by cases h; rfl⟩

end Sys2Proof.Machine
end

