-- ==== Sys2Proof/Laws/Bus.lean ====
section
/-! SUPPORT. The register window: what an offset reaches, and that a read depends on the block alone. -/

namespace Sys2Proof.Machine

theorem busWrite_cmd (v : Word) (s : State) : busWrite 0x008 v s = issue v s := rfl

theorem busRead_status (s : State) : busRead 0x00C s = statusWord s := rfl

theorem busWrite_status (v : Word) (s : State) : busWrite 0x00C v s = writeStatus v s := rfl

@[simp] theorem readReg_withSchedule (r : Reg) (s : State) (ts : List Turn) :
    readReg r (s.withSchedule ts) = readReg r s := by
  cases r <;> rfl

@[simp] theorem readReg_withReply (r : Reg) (s : State) (w : Word) :
    readReg r (s.withReply w) = readReg r s := by
  cases r <;> rfl

@[simp] theorem busRead_withSchedule (off : Offset) (s : State) (ts : List Turn) :
    busRead off (s.withSchedule ts) = busRead off s := by
  unfold busRead; split <;> simp

@[simp] theorem busRead_withReply (off : Offset) (s : State) (w : Word) :
    busRead off (s.withReply w) = busRead off s := by
  unfold busRead; split <;> simp

theorem regAt_stage (k : Fin 16) : regAt (BitVec.ofNat 12 (0x080 + 4 * k.val)) = some (.stage k) := by
  revert k; decide

theorem regAt_b32Out (k : Fin 26) : regAt (BitVec.ofNat 12 (0x100 + 4 * k.val)) = some (.b32Out k) := by
  revert k; decide

theorem regAt_of_unaligned {off : Offset} (h : off.toNat % 4 ≠ 0) : regAt off = none := by
  simp [regAt, h]

/-- What an offset that reaches a register is: that register's, and word-aligned. -/
theorem regAt_cases {off : Offset} {r : Reg} (h : regAt off = some r) :
    r.offset = off ∧ off.toNat % 4 = 0
      ∧ ((∃ k, r = .stage k) ∨ (∃ k, r = .b32Out k) ∨ r ∈ wordRegs) := by
  unfold regAt at h
  split at h
  · cases h
  · have hlt := off.isLt
    refine ⟨?_, by omega, ?_⟩ <;> split at h
    · cases h
      apply BitVec.eq_of_toNat_eq
      simp only [Reg.offset, BitVec.toNat_ofNat]
      omega
    · split at h
      · cases h
        apply BitVec.eq_of_toNat_eq
        simp only [Reg.offset, BitVec.toNat_ofNat]
        omega
      · simpa using List.find?_some h
    · cases h; exact .inl ⟨_, rfl⟩
    · split at h
      · cases h; exact .inr (.inl ⟨_, rfl⟩)
      · exact .inr (.inr (List.mem_of_find?_eq_some h))

/-- No action of the HOST changes the build parameters. -/
theorem hostStep_cfg (a : HostAction) (s : State) : (hostStep a s).cfg = s.cfg := by
  cases a <;> simp [hostStep]

theorem hostStep_schedule (a : HostAction) (s : State) : (hostStep a s).schedule = s.schedule := by
  cases a <;> simp [hostStep]

/-- No action of the HOST but RESET touches a pending command. -/
theorem hostStep_pending_of_busy {a : HostAction} {s : State} {p : Pending} (h : s.pending = some p)
    (ha : a ≠ .reset) : (hostStep a s).pending = some p := by
  cases a with
  | read => exact h
  | write off v =>
    rcases busWrite_pending off v s with h' | ⟨h', -⟩
    · rw [hostStep, h', h]
    · simp [h] at h'
  | reset => exact absurd rfl ha

end Sys2Proof.Machine
end

