-- ==== Sys2Proof/Laws/Bytes.lean ====
section
/-! SUPPORT. Byte lanes and 64-bit values as words: what a word of a buffer is worth, and reads after
writes. -/

namespace Sys2Proof.Machine

theorem lane_of_lt {n : Nat} (b : Vector Byte n) {i : Nat} (h : i < n) : lane b i = b[i] := by
  simp [lane, h]

theorem lane_of_ge {n : Nat} (b : Vector Byte n) {i : Nat} (h : n ≤ i) : lane b i = 0 := by
  simp [lane, Nat.not_lt.2 h]

theorem bufWord_toNat {n : Nat} (b : Vector Byte n) (k : Nat) :
    (bufWord b k).toNat = (lane b (4 * k)).toNat + 256 * (lane b (4 * k + 1)).toNat
      + 65536 * (lane b (4 * k + 2)).toNat + 16777216 * (lane b (4 * k + 3)).toNat := by
  have h0 := (lane b (4 * k)).isLt
  have h1 := (lane b (4 * k + 1)).isLt
  have h2 := (lane b (4 * k + 2)).isLt
  simp only [bufWord, BitVec.toNat_append]
  rw [← Nat.shiftLeft_add_eq_or_of_lt (by omega), ← Nat.shiftLeft_add_eq_or_of_lt (by omega),
    ← Nat.shiftLeft_add_eq_or_of_lt (by omega)]
  simp only [Nat.shiftLeft_eq]
  omega

/-- The bytes of a word that was put together from four. -/
theorem wordByte_append (a b c d : Byte) :
    wordByte (a ++ b ++ c ++ d) 0 = d ∧ wordByte (a ++ b ++ c ++ d) 1 = c
      ∧ wordByte (a ++ b ++ c ++ d) 2 = b ∧ wordByte (a ++ b ++ c ++ d) 3 = a := by
  refine ⟨?_, ?_, ?_, ?_⟩ <;>
  · unfold wordByte
    apply BitVec.eq_of_getLsbD_eq
    intro i hi
    have h0 : ¬ 8 + i < 8 := by omega
    have h1 : 8 + i - 8 = i := by omega
    have h2 : ¬ 16 + i < 8 := by omega
    have h3 : ¬ 16 + i - 8 < 8 := by omega
    have h4 : 16 + i - 8 - 8 = i := by omega
    have h5 : ¬ 24 + i < 8 := by omega
    have h6 : ¬ 24 + i - 8 < 8 := by omega
    have h7 : ¬ 24 + i - 8 - 8 < 8 := by omega
    have h8 : 24 + i - 8 - 8 - 8 = i := by omega
    simp only [BitVec.getLsbD_extractLsb', BitVec.getLsbD_append]
    simp [hi, h0, h1, h2, h3, h4, h5, h6, h7, h8]

/-- A word is its four bytes. -/
theorem wordByte_join (v : Word) : wordByte v 3 ++ wordByte v 2 ++ wordByte v 1 ++ wordByte v 0 = v := by
  apply BitVec.eq_of_toNat_eq
  have h := v.isLt
  have b0 := (wordByte v 0).isLt
  have b1 := (wordByte v 1).isLt
  have b2 := (wordByte v 2).isLt
  simp only [BitVec.toNat_append]
  rw [← Nat.shiftLeft_add_eq_or_of_lt (by omega), ← Nat.shiftLeft_add_eq_or_of_lt (by omega),
    ← Nat.shiftLeft_add_eq_or_of_lt (by omega)]
  simp only [Nat.shiftLeft_eq, wordByte, BitVec.extractLsb'_toNat, Nat.shiftRight_eq_div_pow]
  omega

theorem bufWord_setBufWord {n : Nat} (b : Vector Byte n) (k : Nat) (v : Word) (h : 4 * k + 3 < n) :
    bufWord (setBufWord b k v) k = v := by
  have e0 : 4 * k / 4 = k := by omega
  have e1 : (4 * k + 1) / 4 = k := by omega
  have e2 : (4 * k + 2) / 4 = k := by omega
  have e3 : (4 * k + 3) / 4 = k := by omega
  have f0 : 4 * k % 4 = 0 := by omega
  have f1 : (4 * k + 1) % 4 = 1 := by omega
  have f2 : (4 * k + 2) % 4 = 2 := by omega
  have f3 : (4 * k + 3) % 4 = 3 := by omega
  rw [bufWord, lane_of_lt _ (by omega), lane_of_lt _ (by omega), lane_of_lt _ (by omega),
    lane_of_lt _ (by omega)]
  simp only [setBufWord, Vector.getElem_ofFn, e0, e1, e2, e3, f0, f1, f2, f3, if_true]
  exact wordByte_join v

theorem setBufWord_of_other {n : Nat} (b : Vector Byte n) (k : Nat) (v : Word) (i : Fin n)
    (h : i.val / 4 ≠ k) : (setBufWord b k v)[i] = b[i] := by
  simp [setBufWord, h]

theorem setBufWord_of_same {n : Nat} (b : Vector Byte n) (k : Nat) (v : Word) (i : Fin n)
    (h : i.val / 4 = k) : (setBufWord b k v)[i] = wordByte v (i.val % 4) := by
  simp [setBufWord, h]

theorem counter_toNat (c : Counter) : c.toNat = (highWord c).toNat * 2 ^ 32 + (lowWord c).toNat := by
  simp only [highWord, lowWord, BitVec.extractLsb'_toNat, Nat.shiftRight_eq_div_pow]
  omega

theorem lowWord_append (a b : Word) : lowWord (a ++ b) = b := by
  unfold lowWord
  apply BitVec.eq_of_getLsbD_eq
  intro i hi
  simp only [BitVec.getLsbD_extractLsb', BitVec.getLsbD_append]
  simp [hi]

theorem highWord_append (a b : Word) : highWord (a ++ b) = a := by
  unfold highWord
  apply BitVec.eq_of_getLsbD_eq
  intro i hi
  simp only [BitVec.getLsbD_extractLsb', BitVec.getLsbD_append]
  simp [hi]

@[simp] theorem lowWord_setLowWord (c : Counter) (v : Word) : lowWord (setLowWord c v) = v :=
  lowWord_append _ _

@[simp] theorem highWord_setLowWord (c : Counter) (v : Word) :
    highWord (setLowWord c v) = highWord c :=
  highWord_append _ _

@[simp] theorem lowWord_setHighWord (c : Counter) (v : Word) :
    lowWord (setHighWord c v) = lowWord c :=
  lowWord_append _ _

@[simp] theorem highWord_setHighWord (c : Counter) (v : Word) : highWord (setHighWord c v) = v :=
  highWord_append _ _

end Sys2Proof.Machine
end

