-- ==== Sys2Proof/Laws/Commands.lean ====
section
/-! SUPPORT. The functions the commands share and the result of each command, one lemma for each case of
its rule. -/

namespace Sys2Proof.Machine

/-! ### Functions -/

theorem stepOf_toNat (t : Counter) : (stepOf t).toNat = t.toNat / 30 := by
  have := t.isLt
  simp only [stepOf, period, BitVec.toNat_ofNat]
  omega

theorem remaining_toNat (t : Counter) : (remaining t).toNat = 30 - t.toNat % 30 := by
  simp only [remaining, period, BitVec.toNat_ofNat]
  omega

@[simp] theorem counterOf_stepInput (k : Snapshot) : counterOf false k = k.stepIn := rfl

@[simp] theorem counterOf_time (k : Snapshot) : counterOf true k = stepOf k.timeIn := rfl

@[simp] theorem remainWrites_stepInput (k : Snapshot) : remainWrites false k = [] := rfl

@[simp] theorem remainWrites_time (k : Snapshot) :
    remainWrites true k = [.remain (remaining k.timeIn)] := rfl

theorem hotp_lt (key : List Byte) (c : Counter) : hotp key c < 1000000 := Nat.mod_lt _ (by decide)

theorem hotp_toNat (key : List Byte) (c : Counter) :
    (BitVec.ofNat 20 (hotp key c)).toNat = hotp key c := by
  have := hotp_lt key c
  simp only [BitVec.toNat_ofNat]
  omega

theorem digits_toNat (v : Nat) (j : Fin 6) :
    (digits v)[j].toNat = 0x30 + v / 10 ^ (5 - j.val) % 10 := by
  simp only [digits, Fin.getElem_fin, Vector.getElem_ofFn, BitVec.toNat_ofNat]
  omega

/-! ### Results -/

theorem loadHexResult_of_valid {k : Snapshot} (h : ValidHex k.stage k.slen.toNat) :
    loadHexResult k = { err := .none, writes := commitWrites (hexDecode k.stage h.2) } :=
  dif_pos h

theorem loadHexResult_of_invalid {k : Snapshot} (h : ¬ ValidHex k.stage k.slen.toNat) :
    loadHexResult k = { err := .validation, writes := [] } :=
  dif_neg h

theorem loadRawResult_of_length {k : Snapshot} (h : k.slen.toNat = 32) :
    loadRawResult k = { err := .none, writes := commitWrites (rawSecret k.stage) } :=
  if_neg (not_not.2 h)

theorem loadRawResult_of_bad_length {k : Snapshot} (h : k.slen.toNat ≠ 32) :
    loadRawResult k = { err := .length, writes := [] } :=
  if_pos h

theorem genResult_of_unprovisioned {k : Snapshot} (ts : Bool) (cfg : Config)
    (h : k.seedValid = false) :
    genResult ts cfg k =
      { err := .notProvisioned, writes := [.code 0, .codeA (Vector.replicate 6 0)] } :=
  if_pos h

theorem genResult_of_provisioned {k : Snapshot} (ts : Bool) (cfg : Config) (h : k.seedValid = true) :
    genResult ts cfg k =
      { err := .none
        writes :=
          [.code (BitVec.ofNat 20 (secretCode cfg k.secret (counterOf ts k))),
            .codeA (digits (secretCode cfg k.secret (counterOf ts k))), .stepOut (counterOf ts k)]
            ++ remainWrites ts k } :=
  if_neg (by simp [h])

theorem verResult_of_malformed {k : Snapshot} (ts : Bool) (cfg : Config)
    (h : ¬ ValidCand k.candLen k.cand) : verResult ts cfg k = { err := .input, writes := [] } :=
  if_pos h

theorem verResult_of_unprovisioned {k : Snapshot} (ts : Bool) (cfg : Config)
    (h : ValidCand k.candLen k.cand) (hs : k.seedValid = false) :
    verResult ts cfg k = { err := .notProvisioned, writes := [] } :=
  (if_neg (not_not.2 h)).trans (if_pos hs)

theorem verResult_of_provisioned {k : Snapshot} (ts : Bool) (cfg : Config)
    (h : ValidCand k.candLen k.cand) (hs : k.seedValid = true) :
    verResult ts cfg k =
      { err := .none
        writes := [.stepOut (counterOf ts k)] ++ remainWrites ts k ++
          (if matchesWindow cfg k.secret (candCode k.cand) (counterOf ts k) k.window.toNat
            then [.matchFlag] else []) } :=
  (if_neg (not_not.2 h)).trans (if_neg (by simp [hs]))

theorem b32EncResult_of_long {k : Snapshot} (cfg : Config) (h : 64 < k.slen.toNat) :
    b32EncResult cfg k =
      { err := .length, writes := [.b32Out (Vector.replicate 104 0), .b32OutLen 0] } :=
  if_pos h

theorem b32EncResult_of_short {k : Snapshot} (cfg : Config) (h : k.slen.toNat ≤ 64) :
    b32EncResult cfg k =
      { err := .none
        writes := [.b32Out (b32Buffer (b32 (stagedBytes k) cfg.b32Pad)),
          .b32OutLen (BitVec.ofNat 7 (b32 (stagedBytes k) cfg.b32Pad).length)] } :=
  if_neg (by unfold stageBytes; omega)

end Sys2Proof.Machine
end

