-- ==== Sys2Proof/Laws/Encoding.lean ====
section
/-! SUPPORT. The fields of a command word and what the decoder makes of them. -/

namespace Sys2Proof

/-- Putting a word's fields together gives the word: no bit is dropped. -/
theorem CommandFields.toWord_ofWord (v : Word) : (CommandFields.ofWord v).toWord = v := by
  unfold CommandFields.toWord CommandFields.ofWord
  apply BitVec.eq_of_getLsbD_eq
  intro i hi
  simp only [BitVec.getLsbD_append, BitVec.getLsbD_extractLsb']
  by_cases h1 : i < 4
  · simp [h1]
  · by_cases h2 : i - 4 < 1
    · obtain rfl : i = 4 := by omega
      simp
    · have e : 5 + (i - 4 - 1) = i := by omega
      have e' : i - 4 - 1 < 27 := by omega
      simp [h1, h2, e, e']

theorem decodeFields_of_rsv {f : CommandFields} (h : f.rsv ≠ 0) :
    decodeFields f = .error .reservedBits := by
  unfold decodeFields; rw [if_pos h]

/-- With RSV 0, the decoder answers a command only on that command's fields. -/
theorem fields_of_decodeFields (ts : BitVec 1) (op : BitVec 4) :
    ∀ i ∈ (decodeFields ⟨0, ts, op⟩).toOption, i.fields = ⟨0, ts, op⟩ := by
  revert ts op; decide

end Sys2Proof
end

