-- ==== Sys2Proof/Laws/PerInstr.lean ====
section
/-! SUPPORT. Statements about every instruction as syntax, one lemma per constructor. -/

namespace Sys2Proof.Laws.Encoding

/-- A command's fields are legal (30_encoding R74), its RSV is 0 and its TS is 0 but for GEN and VER
(R70, R71), and its word has those fields. -/
def Statement (i : Instr) : Prop :=
  i.wellFormed = true ∧ i.fields.rsv = 0 ∧ (i.fields.ts = 0 ∨ i.fields.op = 4 ∨ i.fields.op = 5)
    ∧ CommandFields.ofWord (encode i) = i.fields

theorem nop : Statement .nop := by unfold Statement; decide
theorem loadHex : Statement .loadHex := by unfold Statement; decide
theorem loadRaw : Statement .loadRaw := by unfold Statement; decide
theorem step : Statement .step := by unfold Statement; decide
theorem genS : Statement .genS := by unfold Statement; decide
theorem genT : Statement .genT := by unfold Statement; decide
theorem verS : Statement .verS := by unfold Statement; decide
theorem verT : Statement .verT := by unfold Statement; decide
theorem b32Enc : Statement .b32Enc := by unfold Statement; decide

end Sys2Proof.Laws.Encoding
end

