-- ==== Sys2Proof/Machine/HostSyntax.lean ====
section
/-! DEFINITION. The text of a host sequence statement, one to a line (spec/30_encoding.md rules R78 and
R79; log 13 says what the rules leave open of the text). -/

namespace Sys2Proof.Machine

/-- The double quote that encloses a text. -/
def quoteChar : Char := Char.ofNat 34

/-- A finished token, if it has any character. -/
def finishToken (rev : List Char) : List (List Char) := if rev = [] then [] else [rev.reverse]

/-- The tokens of a line. Spaces, tabs and commas separate them, `;` starts a comment, and a quoted text
is one token that begins with the quote (30_encoding R78). -/
def scanLine (quoted : Bool) (rev : List Char) : List Char → List (List Char)
  | [] => finishToken rev
  | c :: cs =>
    if quoted then
      if c = quoteChar then rev.reverse :: scanLine false [] cs else scanLine true (c :: rev) cs
    else if c = ';' then finishToken rev
    else if c = ' ' ∨ c = '\t' ∨ c = ',' then finishToken rev ++ scanLine false [] cs
    else if c = quoteChar then finishToken rev ++ scanLine true [c] cs
    else scanLine false (c :: rev) cs

/-- The value of a digit, in either case. -/
def digitValue (c : Char) : Option Nat :=
  if '0' ≤ c ∧ c ≤ '9' then some (c.toNat - '0'.toNat)
  else if 'a' ≤ c ∧ c ≤ 'f' then some (c.toNat - 'a'.toNat + 10)
  else if 'A' ≤ c ∧ c ≤ 'F' then some (c.toNat - 'A'.toNat + 10)
  else none

/-- One more digit of a number. -/
def appendDigit (base : Nat) (acc : Option Nat) (c : Char) : Option Nat :=
  match acc, digitValue c with
  | some n, some d => if d < base then some (n * base + d) else none
  | _, _ => none

/-- The value of a non-empty string of digits. -/
def digitsValue (base : Nat) (ds : List Char) : Option Nat :=
  if ds = [] then none else ds.foldl (appendDigit base) (some 0)

/-- A number, "decimal, or hexadecimal with `0x`" (30_encoding R78), below a bound. -/
def parseNumber (bound : Nat) (t : List Char) : Option Nat :=
  let n := match t with
    | '0' :: 'x' :: ds => digitsValue 16 ds
    | ds => digitsValue 10 ds
  n.filter (· < bound)

/-- The name of a register of one word (10_state R43). -/
def Reg.name : Reg → String
  | .id        => "ID"
  | .cfg       => "CFG"
  | .cmd       => "CMD"
  | .status    => "STATUS"
  | .window    => "WINDOW"
  | .slen      => "SLEN"
  | .candLen   => "CAND_LEN"
  | .timeLo    => "TIME_LO"
  | .timeHi    => "TIME_HI"
  | .stepLo    => "STEP_LO"
  | .stepHi    => "STEP_HI"
  | .candLo    => "CAND_LO"
  | .candHi    => "CAND_HI"
  | .code      => "CODE"
  | .codeALo   => "CODE_A_LO"
  | .codeAHi   => "CODE_A_HI"
  | .remain    => "REMAIN"
  | .stepOutLo => "STEP_OUT_LO"
  | .stepOutHi => "STEP_OUT_HI"
  | .b32OutLen => "B32_OUT_LEN"
  | .stage _   => "STAGE"
  | .b32Out _  => "B32_OUT"

/-- An offset, or a register name that stands for its offset (30_encoding R78). -/
def parseOffset (t : List Char) : Option Offset :=
  match wordRegs.find? fun r => r.name.toList == t with
  | some r => some r.offset
  | none   => (parseNumber 4096 t).map (BitVec.ofNat 12)

/-- A 32-bit value. -/
def parseWord (t : List Char) : Option Word := (parseNumber (2 ^ 32) t).map (BitVec.ofNat 32)

/-- A mnemonic (30_encoding R78). -/
def parseMnemonic (t : List Char) : Option Instr :=
  [Instr.nop, .loadHex, .loadRaw, .step, .genS, .genT, .verS, .verT, .b32Enc].find?
    fun i => (mnemonicOf i).toList == t

/-- The _LO name of a 64-bit input (30_encoding R79). -/
def parseWide (t : List Char) : Option WideInput :=
  if t = "TIME_LO".toList then some .time else if t = "STEP_LO".toList then some .step else none

/-- The name of a buffer (30_encoding R79). -/
def parseBuffer (t : List Char) : Option TextBuffer :=
  if t = "STAGE".toList then some .stage else if t = "CAND".toList then some .cand else none

/-- A quoted text, as ASCII bytes (30_encoding R79). -/
def parseText : List Char → Option (List Byte)
  | q :: cs =>
    if q = quoteChar ∧ cs.all (fun c => c.toNat < 128) then some (cs.map fun c => BitVec.ofNat 8 c.toNat)
    else none
  | [] => none

/-- Raw bytes given as hex pairs (30_encoding R79). -/
def parseHexPairs : List Char → Option (List Byte)
  | [] => some []
  | [_] => none
  | a :: b :: rest =>
    match digitsValue 16 [a, b], parseHexPairs rest with
    | some v, some bytes => some (BitVec.ofNat 8 v :: bytes)
    | _, _ => none

/-- A statement with one operand. -/
def parseUnary (k a : List Char) : Option HostStmt :=
  if k = "RD".toList then (parseOffset a).map (.rd · none)
  else if k = "CMD".toList then (parseMnemonic a).map .cmd
  else if k = "CMDW".toList then (parseWord a).map .cmdw
  else if k = "RUN".toList then (parseMnemonic a).map .run
  else none

/-- A statement with two operands. -/
def parseBinary (k a b : List Char) : Option HostStmt :=
  if k = "WR".toList then
    (parseOffset a).bind fun off => (parseWord b).map fun v => .wr off v
  else if k = "WR64".toList then
    (parseWide a).bind fun r => (parseNumber (2 ^ 64) b).map fun v => .wr64 r (BitVec.ofNat 64 v)
  else if k = "WRSTR".toList then
    (parseBuffer a).bind fun buf => (parseText b).map fun text => .wrStr buf text
  else if k = "WRHEX".toList ∧ a = "STAGE".toList then (parseHexPairs b).map .wrHex
  else if k = "POLL".toList ∧ a = "->".toList then (parseWord b).map fun v => .poll (some v)
  else none

/-- The statement of a line's tokens; none where they are no statement (30_encoding R78, R79). -/
def parseTokens : List (List Char) → Option HostStmt
  | [k] =>
    if k = "RESET".toList then some .reset
    else if k = "POLL".toList then some (.poll none)
    else none
  | [k, a] => parseUnary k a
  | [k, a, b] => parseBinary k a b
  | [k, a, arrow, v] =>
    if k = "RD".toList ∧ arrow = "->".toList then
      (parseOffset a).bind fun off => (parseWord v).map fun w => .rd off (some w)
    else none
  | _ => none

/-- The statement of one line (30_encoding R78). -/
def parseLine (line : String) : Option HostStmt := parseTokens (scanLine false [] line.toList)

end Sys2Proof.Machine
end

