-- ==== Sys2Proof/Tests/Slice0.lean ====
section
/-! SUPPORT. The model's own tests: decoding against words written out from spec/30_encoding.md, one-step
tests whose expected values are those of spec/95_test_vectors.md, and for every statement with hypotheses
a witness that meets them. -/

namespace Sys2Proof.Tests

open Sys2Proof Sys2Proof.Machine

/-! ### Helpers -/

/-- The default build after reset with the given secret loaded (spec/95, "Secret Z loaded"). -/
def loaded (key : Vector Byte 32) : State := { State.reset with secret := key, seedValid := true }

/-- The secret Z, 32 zero bytes. -/
def zKey : Vector Byte 32 := Vector.replicate 32 0

/-- A text at the start of a buffer. -/
def textIn (n : Nat) (t : List Byte) : Vector Byte n := Vector.ofFn fun i => t.getD i.val 0

/-- The ASCII bytes of a string. -/
def ascii (t : String) : List Byte := t.toList.map fun c => BitVec.ofNat 8 c.toNat

/-- The state one step later. -/
def after (s : State) : State :=
  match step s with
  | .next t => t
  | .fault _ => s
  | .refused _ => s

/-- The state after the command word `v` is issued in `s` and completes. -/
def ran (v : Nat) (s : State) : State := after (s.withFetchWord 32 v)

/-- A state in which command `i` is pending with the inputs of `s`. -/
def pendingOf (i : Option Instr) (s : State) : State := { s with pending := some ⟨i, s.inputs⟩ }

/-- A state whose HOST is about to take the given turns. -/
def facing (ts : List Turn) : State := State.reset.withSchedule ts

/-! ### WellFormed: each check refuses an ill-formed term -/

theorem test_wellFormed_rsv : CommandFields.rsvOk ⟨1, 0, 0⟩ = false
    ∧ CommandFields.wellFormed ⟨1, 0, 0⟩ = false := by decide

theorem test_wellFormed_op : CommandFields.opOk ⟨0, 0, 7⟩ = false
    ∧ CommandFields.wellFormed ⟨0, 0, 7⟩ = false ∧ CommandFields.wellFormed ⟨0, 0, 15⟩ = false := by decide

theorem test_wellFormed_ts : CommandFields.tsOk ⟨0, 1, 6⟩ = false
    ∧ CommandFields.wellFormed ⟨0, 1, 0⟩ = false ∧ CommandFields.wellFormed ⟨0, 1, 5⟩ = true := by decide

/-! ### Decode: the words of 30_encoding R70 and R72, written out as RSV, TS and OP -/

theorem test_decode_nop : decode ((0 : BitVec 27) ++ 0#1 ++ 0b0000#4) = .ok .nop := by decide
theorem test_decode_loadHex : decode ((0 : BitVec 27) ++ 0#1 ++ 0b0001#4) = .ok .loadHex := by decide
theorem test_decode_loadRaw : decode ((0 : BitVec 27) ++ 0#1 ++ 0b0010#4) = .ok .loadRaw := by decide
theorem test_decode_step : decode ((0 : BitVec 27) ++ 0#1 ++ 0b0011#4) = .ok .step := by decide
theorem test_decode_genS : decode ((0 : BitVec 27) ++ 0#1 ++ 0b0100#4) = .ok .genS := by decide
theorem test_decode_genT : decode ((0 : BitVec 27) ++ 1#1 ++ 0b0100#4) = .ok .genT := by decide
theorem test_decode_verS : decode ((0 : BitVec 27) ++ 0#1 ++ 0b0101#4) = .ok .verS := by decide
theorem test_decode_verT : decode ((0 : BitVec 27) ++ 1#1 ++ 0b0101#4) = .ok .verT := by decide
theorem test_decode_b32Enc : decode ((0 : BitVec 27) ++ 0#1 ++ 0b0110#4) = .ok .b32Enc := by decide

/-- 95 V9: the illegal words, each with the reason. -/
theorem test_decode_illegal : decode 0x07 = .error .reservedOp ∧ decode 0x0F = .error .reservedOp
    ∧ decode 0x10 = .error .timeSource ∧ decode 0x13 = .error .timeSource
    ∧ decode 0x16 = .error .timeSource ∧ decode 0x17 = .error .reservedOp
    ∧ decode 0x20 = .error .reservedBits ∧ decode 0x80000004 = .error .reservedBits := by decide

theorem test_decodeTableWord : decodeTableWord 32 0x14 = some .genT ∧ decodeTableWord 32 0x24 = none := by
  decide

/-! ### Functions (95 V1, V2, V3) -/

theorem test_sha1_abc : fromBe (sha1 (ascii "abc")).toList = 0xa9993e364706816aba3e25717850c26c9cd0d89d := by
  decide +kernel

theorem test_hmac_rfc2202_2 : fromBe (hmac (ascii "Jefe") (ascii "what do ya want for nothing?")).toList
    = 0xeffcdf6ae5eb2fa2d27416d5f184df9c259a7c79 := by decide +kernel

theorem test_hotp_rfc4226_1 : hotp (ascii "12345678901234567890") 1 = 287082 := by decide +kernel

/-! ### Commands -/

/-- 44_totp R160: NOP after a failed LOADHEX, with a secret loaded. -/
theorem test_nop_clears_err :
    busRead 0x00C (ran 0x00 { loaded zKey with err := .validation, matchFlag := true }) = 0x6 := by decide

/-- 95 V8: a text with one uppercase digit leaves the slot; 64 times '0' loads Z. -/
theorem test_loadHex_uppercase :
    busRead 0x00C (ran 0x01 { loaded zKey with
      slen := 64, stage := textIn 64 (List.replicate 20 0x30 ++ [0x41] ++ List.replicate 43 0x30) })
      = 0x306 := by decide +kernel

theorem test_loadHex_high_nibble_first :
    let t := ran 0x01 { State.reset with slen := 64, stage := textIn 64 (ascii "1e" ++ List.replicate 62 0x66) }
    t.secret[0] = 0x1E ∧ t.secret[31] = 0xFF ∧ t.stage[0] = 0 ∧ busRead 0x00C t = 0x6 := by decide +kernel

theorem test_loadRaw_takes_32_bytes :
    let t := ran 0x02 { State.reset with slen := 32, stage := Vector.ofFn fun i => BitVec.ofNat 8 i.val }
    t.secret[0] = 0 ∧ t.secret[31] = 0x1F ∧ t.stage[31] = 0 ∧ t.seedValid = true := by decide +kernel

theorem test_loadRaw_length : busRead 0x00C (ran 0x02 { loaded zKey with slen := 31 }) = 0x506 := by decide

/-- 95 V7, TIME = 2^64 - 1. -/
theorem test_step_largest_time :
    let t := ran 0x03 { State.reset with timeIn := 0xFFFFFFFFFFFFFFFF }
    t.stepOut = 0x0888888888888888 ∧ t.remain = 15 := by decide

theorem test_step_boundary : (ran 0x03 { State.reset with timeIn := 29 }).remain = 1
    ∧ (ran 0x03 { State.reset with timeIn := 30 }).remain = 30 := by decide

/-- 95 V5, Z under RAW at c_max. -/
theorem test_genS_largest_counter :
    (ran 0x04 { loaded zKey with stepIn := 0xFFFFFFFFFFFFFFFF }).code = 566304 := by decide +kernel

theorem test_genS_not_provisioned : busRead 0x00C (ran 0x04 { State.reset with code := 5 }) = 0x202
    ∧ (ran 0x04 { State.reset with code := 5 }).code = 0 := by decide

/-- 95 P1, the all-zero secret at the epoch. -/
theorem test_genT_zero_secret :
    let t := ran 0x14 (loaded zKey)
    busRead 0x040 t = 0x00050322 ∧ busRead 0x044 t = 0x34383233 ∧ busRead 0x048 t = 0x00003238
      ∧ busRead 0x04C t = 0x1E := by decide +kernel

/-- 95 L1-2, the same under B32_ASCII and PAD. -/
theorem test_genT_b32_ascii :
    (ran 0x14 { loaded zKey with cfg := ⟨.b32Ascii, .pad⟩ }).code = 842807 := by decide +kernel

/-- 95 V6-1: the code of step 2 is in the window of step 1, and the window of 0 does not wrap. -/
theorem test_verS_window :
    busRead 0x00C (ran 0x05 { loaded zKey with
      stepIn := 1, candLen := 6, cand := textIn 8 (ascii "073348XY") }) = 0xE := by decide +kernel

theorem test_verS_no_wrap :
    busRead 0x00C (ran 0x05 { loaded zKey with
      stepIn := 0, candLen := 6, cand := textIn 8 (ascii "566304") }) = 0x6 := by decide +kernel

/-- 95 V6-2: a malformed candidate is reported first. -/
theorem test_verT_malformed :
    busRead 0x00C (ran 0x15 { State.reset with candLen := 6, cand := textIn 8 (ascii "07334/") }) = 0x402
      := by decide

theorem test_verT_window :
    let t := ran 0x15 { loaded zKey with timeIn := 59, window := 0, candLen := 6, cand := textIn 8 (ascii "812658") }
    t.matchFlag = true ∧ t.stepOut = 1 ∧ t.remain = 1 := by decide +kernel

/-- 95 P2. -/
theorem test_b32Enc_foobar :
    let t := ran 0x06 { State.reset with slen := 6, stage := textIn 64 (ascii "foobar") }
    busRead 0x058 t = 16 ∧ busRead 0x100 t = 0x57585A4D ∧ busRead 0x108 t = 0x3D3D494F
      ∧ busRead 0x110 t = 0 ∧ busRead 0x080 t = 0x626F6F66 := by decide +kernel

theorem test_b32Enc_length :
    busRead 0x00C (ran 0x06 { State.reset with slen := 65, b32OutLen := 3 }) = 0x502 := by decide

/-- 95 V9: an illegal word completes with ERR_ILLEGAL and does not clear STAGE. -/
theorem test_illegal_word :
    let t := ran 0x11 { loaded zKey with stage := textIn 64 [7] }
    busRead 0x00C t = 0x106 ∧ t.stage[0] = 7 := by decide

/-! ### Registers (95 V10) and the HOST -/

theorem test_register_vectors : busRead 0x000 State.reset = 0x544F5450 ∧ busRead 0x004 State.reset = 2
    ∧ busRead 0x010 (busWrite 0x010 0x1FF State.reset) = 0xFF
    ∧ busWrite 0x00C 0xFFFFFFEF { State.reset with ovr := true } = { State.reset with ovr := true } := by
  decide +kernel

theorem test_poll_and_overrun :
    core.run 3 (facing [.host (.write 0x008 0), .host (.write 0x008 0), .host (.read 0x00C)])
      = .next { pendingOf (some .nop) State.reset with ovr := true, replies := [0x11] } := by rfl

/-- 30_encoding R78, R79: statements as text. -/
theorem test_host_statements : parseLine "RD  CODE_A_LO -> 0x34383233 ; text" = some (.rd 0x044 (some 0x34383233))
    ∧ parseLine "WR64 TIME_LO, 1234567890" = some (.wr64 .time 1234567890)
    ∧ parseLine "RUN GEN.T" = some (.run .genT) ∧ parseLine "RUN GEN" = none := by decide +kernel

/-- 95 V10: the bytes of a text in CAND, and a shorter text that leaves CAND_HI (95 P3). -/
theorem test_wrStr_cand :
    let t := (State.reset.withSequence [.wrStr .cand (ascii "073348"), .wrStr .cand (ascii "12")])
    core.run 2 t = .next { (t.withSchedule [wrTurn 0x030 0x00003231]) with
      cand := setBufWord (setBufWord t.cand 0 0x33333730) 1 0x00003834 } := by rfl

/-! ### Witnesses: the hypotheses of the statements can be met -/

theorem witness_DecodeAndEncodeAgree : decode 0x14 = .ok .genT := by decide

theorem witness_IllegalWordCompletesWithErrIllegal :
    (∀ v ∈ [0x20, 0x80000000, 0x7, 0xF, 0x10, 0x13, 0x16], IllegalBits (BitVec.ofNat 32 v))
    ∧ State.reset.pending = none
    ∧ (facing [.host (.write 0x008 0x20), .engine]).schedule = .host (.write 0x008 0x20) :: .engine :: []
    ∧ ∃ s : State, s.pending = some ⟨none, State.reset.inputs⟩ ∧ s.schedule = .engine :: [] := by
  refine ⟨by unfold IllegalBits; decide +kernel, rfl, rfl, ?_⟩
  exact ⟨(pendingOf none State.reset).withSchedule [.engine], rfl, rfl⟩

/-- A write to CMD, a turn of the ENGINE that comes later, and no turn left, for a legal command and an
illegal one. -/
theorem witness_StepRunsTheDecodedCommand :
    (∃ s : State, decode 0x03 = .ok .step ∧ s.pending = none
      ∧ s.schedule = .host (.write 0x008 0x03) :: .host (.read 0x00C) :: [])
    ∧ (∃ s : State, s.pending = some ⟨some .genS, State.reset.inputs⟩ ∧ s.schedule = .engine :: [])
    ∧ ∀ c : Option Instr, ∃ s : State, s.pending = some ⟨c, State.reset.inputs⟩ ∧ s.schedule = [] :=
  ⟨⟨facing [.host (.write 0x008 0x03), .host (.read 0x00C)], by decide, rfl, rfl⟩,
    ⟨(pendingOf (some .genS) State.reset).withSchedule [.engine], rfl, rfl⟩,
    fun c => ⟨pendingOf c State.reset, rfl, rfl⟩⟩

theorem witness_PendingCommandCompletes :
    ∃ s : State, s.pending = some ⟨none, State.reset.inputs⟩ ∧ s.schedule ≠ [] ∧ .host .reset ∉ s.schedule :=
  ⟨(pendingOf none State.reset).withSchedule [.host (.read 0x00C), .engine], rfl, by decide, by decide⟩

theorem witness_BusTurnsReadAndWriteTheWindow :
    (∃ s : State, s.schedule = .host (.read 0x000) :: .host (.write 0x010 2) :: [])
    ∧ (∃ s : State, s.schedule = .host (.read 0xFFF) :: .host (.read 0xFFF) :: [])
    ∧ (∃ s : State, s.schedule = .host (.write 0x010 2) :: []) ∧ ∃ s : State, s.schedule = .host .reset :: [] :=
  ⟨⟨facing _, rfl⟩, ⟨facing _, rfl⟩, ⟨facing _, rfl⟩, facing _, rfl⟩

/-- The offsets at the ends of each range, none of them in two clauses with different outcomes. -/
theorem witness_UnalignedAndReservedOffsetsAreRazWi :
    ∀ n ∈ [0x001, 0x003, 0x01C, 0x038, 0x03C, 0x05C, 0x07C, 0x0C0, 0x0FC, 0x168, 0xFFC, 0xFFF],
    regAt (BitVec.ofNat 12 n) = none ∧ (BitVec.ofNat 12 n).toNat = n
      ∧ (n % 4 ≠ 0 ∨ (0x01C ≤ n ∧ n < 0x020) ∨ (0x038 ≤ n ∧ n < 0x040) ∨ (0x05C ≤ n ∧ n < 0x080)
        ∨ (0x0C0 ≤ n ∧ n < 0x100) ∨ 0x168 ≤ n) := by decide

theorem witness_ReadOnlyRegistersIgnoreWrites :
    ∀ n ∈ [0x000, 0x004, 0x040, 0x058, 0x100, 0x164], (regAt (BitVec.ofNat 12 n)).isSome = true
      ∧ (BitVec.ofNat 12 n).toNat = n
      ∧ (n = 0x000 ∨ n = 0x004 ∨ (0x040 ≤ n ∧ n < 0x05C) ∨ (0x100 ≤ n ∧ n < 0x168)) := by decide

theorem witness_IdentificationAndParametersRead : ∃ t, step State.reset = .next t := ⟨_, rfl⟩

theorem witness_StatusFieldsAndOverrunClear : (0x10#32).getLsbD 4 = true ∧ (0xFFFFFFEF#32).getLsbD 4 = false := by
  decide

theorem witness_BufferWritesReplaceOneWord : (⟨63, by decide⟩ : Fin 64).val / 4 ≠ (⟨0, by decide⟩ : Fin 16).val
    ∧ (⟨3, by decide⟩ : Fin 8).val / 4 ≠ (⟨1, by decide⟩ : Fin 2).val := by decide

theorem witness_IssueLatchesOrOverruns : State.reset.pending = none
    ∧ ∃ p, (pendingOf (some .nop) State.reset).pending = some p := ⟨rfl, _, rfl⟩

/-- Each of the nine commands can be the pending one. -/
theorem witness_commands_pending :
    ∀ i : Instr, (pendingOf (some i) State.reset).pending = some ⟨some i, State.reset.inputs⟩ := fun _ => rfl

theorem witness_StepComputesStepAndRemaining :
    ∃ s : State, s.pending = some ⟨some .step, State.reset.inputs⟩ := ⟨_, witness_commands_pending .step⟩

/-- Both clauses of LOADHEX: the largest and smallest digits at length 64, and each way to be invalid. -/
theorem witness_LoadHexValidatesAndCommits :
    (∃ s : State, s.pending = some ⟨some .loadHex, State.reset.inputs⟩)
    ∧ (∀ i : Fin 64, isHex (textIn 64 (ascii "09af" ++ List.replicate 60 0x30))[i] = true)
    ∧ (63#8 ≠ 64 ∧ 65#8 ≠ 64)
    ∧ ∀ b ∈ [0x2F#8, 0x3A#8, 0x60#8, 0x67#8, 0x41#8, 0xB0#8],
        ∃ i : Fin 64, isHex (textIn 64 (List.replicate 63 0x30 ++ [b]))[i] = false := by
  refine ⟨⟨_, witness_commands_pending .loadHex⟩, by decide +kernel, by decide, ?_⟩
  intro b hb
  exact ⟨63, by revert b; decide +kernel⟩

theorem witness_HexTextRoundTrip :
    ∃ (key : Vector Byte 32) (k l : Snapshot), k.slen = 64 ∧ k.stage = hexText key ∧ l.slen = 32
      ∧ ∀ i : Fin 32, l.stage[i.val] = key[i] :=
  ⟨zKey, { State.reset.inputs with slen := 64, stage := hexText zKey },
    { State.reset.inputs with slen := 32 }, rfl, rfl, rfl, by decide⟩

theorem witness_LoadRawCommitsThirtyTwoBytes :
    (∃ (s : State) (k : Snapshot), s.pending = some ⟨some .loadRaw, k⟩ ∧ k.slen = 32)
    ∧ ∀ n ∈ [0#8, 31#8, 33#8, 64#8, 255#8],
        ∃ (s : State) (k : Snapshot), s.pending = some ⟨some .loadRaw, k⟩ ∧ k.slen = n ∧ k.slen ≠ 32 :=
  ⟨⟨pendingOf (some .loadRaw) { State.reset with slen := 32 }, _, rfl, rfl⟩,
    fun n hn => ⟨pendingOf (some .loadRaw) { State.reset with slen := n }, _, rfl, rfl, by
      show n ≠ 32; revert n; decide⟩⟩

theorem witness_GenWritesTheCodeOfItsCounter :
    ∀ i ∈ [Instr.genS, .genT], ∀ b : Bool, ∃ (s : State) (k : Snapshot),
      s.pending = some ⟨some i, k⟩ ∧ k.seedValid = b :=
  fun i _ b => ⟨pendingOf (some i) { State.reset with seedValid := b }, _, rfl, rfl⟩

/-- The clauses of VER: lengths beside 6, bytes beside the digits, and well-formed candidates with and
without a secret. -/
theorem witness_VerMatchesTheWindowOfItsCounter :
    (∀ i ∈ [Instr.verS, .verT], ∀ b : Bool, ∃ (s : State) (k : Snapshot),
      s.pending = some ⟨some i, k⟩ ∧ k.seedValid = b ∧ k.candLen = 6
        ∧ ∀ j : Fin 6, 0x30 ≤ k.cand[j.val].toNat ∧ k.cand[j.val].toNat ≤ 0x39)
    ∧ (0#8 ≠ 6 ∧ 5#8 ≠ 6 ∧ 7#8 ≠ 6 ∧ 255#8 ≠ 6)
    ∧ ((textIn 8 (ascii "07334/"))[5].toNat < 0x30 ∧ 0x39 < (textIn 8 (ascii ":73348"))[0].toNat) :=
  ⟨fun i _ b => ⟨pendingOf (some i) { State.reset with
      seedValid := b, candLen := 6, cand := textIn 8 (ascii "012349") }, _, rfl, rfl, rfl, by
        show ∀ j : Fin 6, 0x30 ≤ (textIn 8 (ascii "012349"))[j.val].toNat
          ∧ (textIn 8 (ascii "012349"))[j.val].toNat ≤ 0x39
        decide⟩,
    by decide, by decide⟩

theorem witness_B32EncEncodesTheStagedBytes :
    ∀ n ∈ [0#8, 64#8, 65#8, 255#8], ∃ (s : State) (k : Snapshot),
      s.pending = some ⟨some .b32Enc, k⟩ ∧ k.slen = n ∧ (64 < k.slen.toNat ∨ k.slen.toNat ≤ 64) :=
  fun n _ => ⟨pendingOf (some .b32Enc) { State.reset with slen := n }, _, rfl, rfl, by omega⟩

/-- The code of Z at TIME = 0 is accepted at that TIME, and at STEP = 0. -/
theorem witness_GeneratedCodeVerifies :
    ∃ (s t : State) (k l : Snapshot), s.pending = some ⟨some .genT, k⟩ ∧ k.seedValid = true
      ∧ exec .genT s = .next t ∧ l.seedValid = true ∧ l.secret = k.secret ∧ l.candLen = 6
      ∧ (∀ j : Fin 6, l.cand[j.val] = t.codeA[j]) ∧ l.timeIn = k.timeIn ∧ l.stepIn = t.stepOut :=
  ⟨pendingOf (some .genT) (loaded zKey), _, (loaded zKey).inputs,
    { (loaded zKey).inputs with candLen := 6, cand := textIn 8 (ascii "328482") },
    rfl, rfl, rfl, rfl, rfl, rfl, by decide +kernel, rfl, by decide +kernel⟩

/-- For each command two snapshots that differ and agree on its operands. -/
theorem witness_CommandsReadAndWriteTheirOperands :
    (∀ i : Instr, ∃ t, exec i State.reset = .next t)
    ∧ (∀ i : Instr, ∃ k l : Snapshot, k ≠ l ∧ SameOperands i k l)
    ∧ State.reset.pending = none ∧ decode 1 = .ok .loadHex ∧ decode 2 = .ok .loadRaw := by
  refine ⟨fun i => by cases i <;> exact ⟨_, rfl⟩, fun i => ?_, rfl, by decide, by decide⟩
  let k := State.reset.inputs
  cases i with
  | step => exact ⟨k, { k with stepIn := 1 }, by decide, rfl⟩
  | genT => exact ⟨k, { k with stepIn := 1 }, by decide, rfl, rfl, rfl⟩
  | verT => exact ⟨k, { k with stepIn := 1 }, by decide, rfl, fun _ => rfl, rfl, rfl, rfl, rfl⟩
  | genS => exact ⟨k, { k with timeIn := 1 }, by decide, rfl, rfl, rfl⟩
  | verS => exact ⟨k, { k with timeIn := 1 }, by decide, rfl, fun _ => rfl, rfl, rfl, rfl, rfl⟩
  | nop => exact ⟨k, { k with timeIn := 1 }, by decide, trivial⟩
  | loadHex => exact ⟨k, { k with timeIn := 1 }, by decide, rfl, rfl⟩
  | loadRaw => exact ⟨k, { k with timeIn := 1 }, by decide, rfl, fun _ => rfl⟩
  | b32Enc => exact ⟨k, { k with timeIn := 1 }, by decide, rfl, fun _ _ => rfl⟩

theorem witness_ResultDependsOnSnapshotOnly :
    ∃ s : State, s.cfg = Config.default ∧ s.pending = some ⟨some .nop, State.reset.inputs⟩ :=
  ⟨pendingOf (some .nop) State.reset, rfl, rfl⟩

theorem witness_PossibleErrorsOfEachCommand : ∀ i : Instr, ∃ t, exec i State.reset = .next t :=
  witness_CommandsReadAndWriteTheirOperands.1

/-- An error of each command that can meet one. -/
theorem witness_ErrorsArePrecise :
    ∀ i ∈ [Instr.loadHex, .loadRaw, .genS, .genT, .verS, .verT, .b32Enc],
      ∃ t, exec i { State.reset with slen := 65 } = .next t ∧ t.err ≠ .none := by
  intro i hi
  cases i
  all_goals first
    | exact ⟨_, rfl, by decide⟩
    | simp at hi

theorem witness_StepKeepsTheInvariant : Inv State.reset ∧ ∃ t, step State.reset = .next t :=
  ⟨by constructor <;> decide, _, rfl⟩

theorem witness_ParametersNeverChange : ∃ t, core.run 1 (facing [.host .reset]) = .next t := ⟨_, rfl⟩

theorem witness_ResetSetsEveryField :
    (∃ s : State, s.resetNext = true ∧ s.pending ≠ none)
    ∧ ∃ s t : State, step s = .next t ∧ s.seedValid = true ∧ t.seedValid = false :=
  ⟨⟨(pendingOf (some .nop) State.reset).withSchedule [.host .reset], rfl, by decide⟩,
    (loaded zKey).withSchedule [.host .reset], _, rfl, rfl, rfl⟩

/-- A LOADRAW that completes changes the slot. -/
theorem witness_SecretSlotChangesOnlyByLoadOrReset :
    ∃ s t : State, step s = .next t ∧ s.resetNext = false ∧ t.seedValid ≠ s.seedValid :=
  ⟨pendingOf (some .loadRaw) { State.reset with slen := 32 }, _, rfl, rfl, by decide⟩

theorem witness_ResultsChangeOnlyByCompletion :
    (∃ s t : State, step s = .next t ∧ s.resetNext = false ∧ s.engineNext = false)
    ∧ ∃ s t : State, step s = .next t ∧ s.resetNext = false ∧ s.pending = none :=
  ⟨⟨facing [.host (.read 0)], _, rfl, rfl, rfl⟩, State.reset, _, rfl, rfl, rfl⟩

theorem witness_OverrunIsSticky :
    ∃ s t : State, step s = .next t ∧ s.ovr = true ∧ s.resetNext = false
      ∧ s.schedule = .host (.write 0x00C 0xFFFFFFEF) :: [] ∧ (0xFFFFFFEF#32).getLsbD 4 = false :=
  ⟨{ facing [.host (.write 0x00C 0xFFFFFFEF)] with ovr := true }, _, rfl, rfl, rfl, rfl, by decide⟩

theorem witness_NoRegisterReadsTheSecret : ∃ p, (pendingOf none State.reset).pending = some p := ⟨_, rfl⟩

/-- Two states with different secrets and SEED_VALID = 0. -/
theorem witness_UnloadedSecretIsUnobservable :
    ∃ s t s' t' : State, SameUntilLoaded s t ∧ s.secret ≠ t.secret ∧ core.run 1 s = .next s'
      ∧ core.run 1 t = .next t' :=
  ⟨State.reset, { State.reset with secret := Vector.replicate 32 1 }, _, _,
    ⟨rfl, fun h => by simp [State.reset] at h, trivial⟩, by decide, rfl, rfl⟩

theorem witness_B32IsInjectiveOverItsAlphabet : ([1#8]).length = ([1#8]).length ∧ b32 [1#8] .pad = b32 [1#8] .pad
    ∧ ∃ ch, ch ∈ b32 [1#8] .pad := ⟨rfl, rfl, 0x3D, by decide⟩

theorem witness_Sha1ScheduleRecurrence : (List.replicate 64 (0 : Byte)).length = 64 := by decide

theorem witness_HmacBlockKey : (List.replicate 32 (0 : Byte)).length + 32 ≤ 64
    ∧ 64 < (List.replicate 65 (0 : Byte)).length := by decide

theorem witness_DigitsDetermineTheValue : ∀ v ∈ [0, 12961, 999999], v < 1000000
    ∧ ∀ i : Fin 6, 0x30 ≤ (digits v)[i].toNat ∧ (digits v)[i].toNat ≤ 0x39 := by decide

theorem witness_WindowIsClippedNotWrapped :
    ((255#8).toNat ≤ (255#64).toNat ∧ (255#64).toNat + (255#8).toNat < 2 ^ 64)
    ∧ (255#8).toNat ≤ (0xFFFFFFFFFFFFFF00#64).toNat
      ∧ (0xFFFFFFFFFFFFFF00#64).toNat + (255#8).toNat < 2 ^ 64 := by decide

theorem witness_HostSequenceWritesLand : State.reset.schedule = [] ∧ (List.replicate 64 (0x30 : Byte)).length ≤ 64
    ∧ ([] : List Byte).length ≤ 64 ∧ (List.replicate 8 (0x30 : Byte)).length ≤ 8
    ∧ ([] : List Byte).length ≤ 8 := by decide

theorem witness_WindowSitsAtBase : offsetOfAddress Platform.base = some 0
    ∧ offsetOfAddress (Platform.base + 4095) = some 4095 ∧ offsetOfAddress (Platform.base + 4096) = none := by
  simp [offsetOfAddress]

end Sys2Proof.Tests
end

section
/-! PROOFS of the family 00_scope: what every step keeps, carried over a run of any length. -/

namespace Sys2Proof.Machine

/-- The ENGINE's turn always ends in a next state. -/
theorem exists_complete (s : State) : ∃ t, complete s = .next t := by
  obtain ⟨-, hc⟩ | ⟨_, _, -, hc⟩ | ⟨_, -, hc⟩ := complete_cases s
  all_goals exact ⟨_, hc⟩

/-- Every state has a next one: no step faults or is refused. -/
theorem exists_step (s : State) : ∃ t, step s = .next t := by
  match h : s.schedule with
  | [] => exact step_of_empty h ▸ exists_complete s
  | .engine :: rest => exact step_of_engine h ▸ exists_complete (s.withSchedule rest)
  | .host _ :: _ => exact ⟨_, step_of_host h⟩

/-- A run of `n + 1` steps is one step and a run of `n`. -/
theorem exists_step_of_run_succ {n : Nat} {s t : State} (h : core.run (n + 1) s = .next t) :
    ∃ u, step s = .next u ∧ core.run n u = .next t := by
  obtain ⟨u, hu⟩ := exists_step s
  exact ⟨u, hu, run_succ hu ▸ h⟩

/-- What every step keeps, every run keeps. -/
theorem run_keeps {P : State → Prop} (hstep : ∀ {s t : State}, step s = .next t → P s → P t)
    {n : Nat} {s t : State} (h : core.run n s = .next t) (hs : P s) : P t := by
  induction n generalizing s with
  | zero =>
    obtain rfl : s = t := Host.Outcome.next.inj h
    exact hs
  | succ n ih =>
    obtain ⟨u, hu, hrun⟩ := exists_step_of_run_succ h
    exact ih hrun (hstep hu hs)

/-- The ENGINE's turn does not change the build parameters. -/
theorem complete_cfg {s t : State} (h : complete s = .next t) : t.cfg = s.cfg := by
  obtain ⟨-, hc⟩ | ⟨i, k, -, hc⟩ | ⟨k, -, hc⟩ := complete_cases s
  all_goals
    cases hc.symm.trans h
    simp

/-- Neither agent's turn changes the build parameters (00_scope R6). -/
theorem step_cfg {s t : State} (h : step s = .next t) : t.cfg = s.cfg := by
  obtain ⟨rest, -, hc⟩ | ⟨a, rest, -, rfl⟩ := step_cases h
  · simpa using complete_cfg hc
  · simp [hostStep_cfg]

/-- Settles O37: no step changes the parameters, so no run does. -/
theorem parametersNeverChange : Obligations.ParametersNeverChange := by
  intro n s t h
  exact run_keeps (P := fun u => u.cfg = s.cfg) (fun hu hs => (step_cfg hu).trans hs) h rfl

end Sys2Proof.Machine
end

section
/-! PROOFS of the family 10_state: the invariant of the block (10_state R25, R33 to R42). -/

namespace Sys2Proof.Machine

/-! ### Completion as field writes to a completed state -/

theorem applyWrites_append (ws vs : List FieldWrite) (s : State) :
    applyWrites (ws ++ vs) s = applyWrites vs (applyWrites ws s) :=
  List.foldl_append

/-- The writes of a completion touch neither ERR, DONE nor PENDING, so they may as well come last
(10_state R41). -/
theorem finish_eq_applyWrites_completed (r : Result) (s : State) :
    finish r s = applyWrites r.writes (s.completed r.err) := by
  suffices h : ∀ (ws : List FieldWrite) (u : State),
      { applyWrites ws u with err := r.err, done := true, pending := none } =
        applyWrites ws { u with err := r.err, done := true, pending := none } from
    h r.writes { s with matchFlag := false }
  intro ws
  induction ws with
  | nil => exact fun _ => rfl
  | cons w ws ih =>
    intro u
    simp only [applyWrites_cons, ih]
    cases w <;> rfl

/-! ### Lengths of Base32 text -/

/-- The outer loop emits one character for every five bits, the last group filled up. -/
theorem b32Loop_length {s : List Byte} {buf nbits : Nat} (hn : nbits < 5) (hb : buf < 2 ^ nbits) :
    (b32Loop s buf nbits).length = (nbits + 8 * s.length + 4) / 5 := by
  induction s generalizing buf nbits with
  | nil =>
    simp only [b32Loop, b32Final]
    split
    all_goals
      simp only [List.length_cons, List.length_nil]
      omega
  | cons c s ih =>
    have hc := c.isLt
    have hbuf : buf * 256 + c.toNat < 2 ^ (nbits + 8) := by rw [pow_add]; omega
    simp only [b32Loop, b32Drain_eq hbuf, List.length_append, List.length_map, List.length_range,
      List.length_cons, ih (Nat.mod_lt _ (by decide)) (Nat.mod_lt _ (by positivity))]
    omega

theorem b32_length_le (s : List Byte) (p : B32Pad) : (b32 s p).length ≤ 8 * ((s.length + 4) / 5) := by
  have hl : (b32Loop s 0 0).length = (0 + 8 * s.length + 4) / 5 := b32Loop_length (by decide) (by decide)
  cases p with
  | noPad =>
    simp only [b32, b32Padded, hl]
    omega
  | pad =>
    simp only [b32, b32Padded, List.length_append, List.length_replicate, hl]
    omega

theorem stagedBytes_length_le (k : Snapshot) : (stagedBytes k).length ≤ 64 := by
  simp [stagedBytes]

theorem b32_stagedBytes_length_le (k : Snapshot) (p : B32Pad) : (b32 (stagedBytes k) p).length ≤ 104 := by
  have h := b32_length_le (stagedBytes k) p
  have h' := stagedBytes_length_le k
  omega

theorem b32Buffer_rest (t : List Byte) (i : Fin 104) (h : t.length ≤ i.val) : (b32Buffer t)[i] = 0 := by
  simp [b32Buffer, h]

/-! ### Codes -/

theorem secretCode_lt (cfg : Config) (key : Vector Byte 32) (c : Counter) :
    secretCode cfg key c < 1000000 :=
  hotp_lt (hmacKey cfg key) c

theorem secretCode_toNat (cfg : Config) (key : Vector Byte 32) (c : Counter) :
    (BitVec.ofNat 20 (secretCode cfg key c)).toNat = secretCode cfg key c :=
  hotp_toNat (hmacKey cfg key) c

/-! ### The invariant under each update of the state -/

theorem inv_resetOf (c : Config) : Inv (State.resetOf c) where
  code_lt := by simp
  codeA_digits := .inr ⟨rfl, rfl⟩
  remain_le := by simp
  b32OutLen_le := by simp
  b32Out_rest := by simp
  done_idle := by simp
  match_sound := by simp
  not_provisioned := by simp
  snap_slot := by simp

theorem Inv.withSchedule {s : State} (h : Inv s) (ts : List Turn) : Inv (s.withSchedule ts) :=
  { h with }

theorem Inv.withReply {s : State} (h : Inv s) (w : Word) : Inv (s.withReply w) :=
  { h with }

theorem inv_hostReset (s : State) : Inv (hostReset s) :=
  { inv_resetOf s.cfg with }

/-- A write after which DONE stands has issued nothing: an issue clears DONE (10_state R42). -/
theorem busWrite_pending_of_done {off : Offset} {v : Word} {s : State}
    (h : (busWrite off v s).done = true) : (busWrite off v s).pending = s.pending := by
  unfold busWrite at h ⊢
  split at h
  next r hr =>
    cases r with
    | cmd =>
      cases hp : s.pending with
      | none => simp [writeReg, issue_of_idle v hp] at h
      | some p => simp [writeReg, issue_of_pending v hp, hp]
    | status => exact writeStatus_pending v s
    | _ => simp only [writeReg]
  next => rfl

/-- An issue copies the slot and clears DONE; no other write of the HOST touches what the invariant
speaks of. -/
theorem Inv.busWrite {s : State} (h : Inv s) (off : Offset) (v : Word) : Inv (busWrite off v s) where
  code_lt := by simpa using h.code_lt
  codeA_digits := by simpa using h.codeA_digits
  remain_le := by simpa using h.remain_le
  b32OutLen_le := by simpa using h.b32OutLen_le
  b32Out_rest := by simpa using h.b32Out_rest
  done_idle := by
    intro hd
    have hp := busWrite_pending_of_done hd
    obtain hd' | ⟨hi, -⟩ := busWrite_done off v s
    · exact hp.trans (h.done_idle (hd'.symm.trans hd))
    · exact hp.trans hi
  match_sound := by simpa using h.match_sound
  not_provisioned := by simpa using h.not_provisioned
  snap_slot := by
    intro p hp
    rw [busWrite_secret, busWrite_seedValid]
    obtain hk | ⟨-, hk⟩ := busWrite_pending off v s
    · exact h.snap_slot p (hk ▸ hp)
    · cases hk.symm.trans hp
      exact ⟨rfl, rfl⟩

theorem Inv.hostStep {s : State} (h : Inv s) (a : HostAction) : Inv (hostStep a s) := by
  cases a with
  | read off => exact h.withReply _
  | write off v => exact h.busWrite off v
  | reset => exact inv_hostReset s

theorem Inv.completed {s : State} (h : Inv s) (e : ErrCode)
    (he : e = .notProvisioned → s.seedValid = false) : Inv (s.completed e) :=
  { h with
    done_idle := fun _ => rfl
    match_sound := nofun
    not_provisioned := he
    snap_slot := nofun }

theorem Inv.setCode {s : State} (h : Inv s) {v : BitVec 20} {d : Vector Byte 6}
    (hv : v.toNat < 1000000) (hd : d = digits v.toNat ∨ (v = 0 ∧ d = Vector.replicate 6 0)) :
    Inv (applyWrites [.code v, .codeA d] s) :=
  { h with code_lt := hv, codeA_digits := hd }

theorem Inv.setStepOut {s : State} (h : Inv s) (c : Counter) : Inv (applyWrites [.stepOut c] s) :=
  { h with }

theorem Inv.setRemain {s : State} (h : Inv s) (t : Counter) :
    Inv (applyWrites [.remain (remaining t)] s) :=
  { h with remain_le := (remaining_toNat t).trans_le (Nat.sub_le _ _) }

/-- GEN and VER with a secret record the counter, and the seconds that remain when it is taken from
TIME. -/
theorem Inv.setCounter {s : State} (h : Inv s) (ts : Bool) (k : Snapshot) :
    Inv (applyWrites ([.stepOut (counterOf ts k)] ++ remainWrites ts k) s) := by
  rw [applyWrites_append]
  cases ts with
  | false => exact h.setStepOut _
  | true => exact (h.setStepOut _).setRemain _

theorem Inv.setMatch {s : State} (h : Inv s) (he : s.err = .none) (hs : s.seedValid = true) :
    Inv (applyWrites [.matchFlag] s) :=
  { h with match_sound := fun _ => ⟨he, hs⟩ }

/-- A commit can break only what is said of the error, and of a pending copy of the slot. -/
theorem Inv.commit {s : State} (h : Inv s) (he : s.err = .none) (hp : s.pending = none)
    (key : Vector Byte 32) : Inv (applyWrites (commitWrites key) s) :=
  { h with
    match_sound := fun _ => ⟨he, rfl⟩
    not_provisioned := fun hn => absurd (he.symm.trans hn) (by decide)
    snap_slot := fun p hk => absurd (hp.symm.trans hk) (by simp) }

theorem Inv.setB32 {s : State} (h : Inv s) {b : Vector Byte 104} {n : BitVec 7} (hn : n.toNat ≤ 104)
    (hb : ∀ i : Fin 104, n.toNat ≤ i.val → b[i] = 0) :
    Inv (applyWrites [.b32Out b, .b32OutLen n] s) :=
  { h with b32OutLen_le := hn, b32Out_rest := hb }

/-! ### The invariant under each command -/

theorem Inv.finish_load {s : State} (h : Inv s) (key : Vector Byte 32) :
    Inv (finish { err := .none, writes := commitWrites key } s) := by
  rw [finish_eq_applyWrites_completed]
  exact (h.completed .none nofun).commit rfl rfl key

theorem Inv.finish_loadHex {s : State} (h : Inv s) (k : Snapshot) : Inv (finish (loadHexResult k) s) := by
  by_cases hv : ValidHex k.stage k.slen.toNat
  · rw [loadHexResult_of_valid hv]
    exact h.finish_load _
  · rw [loadHexResult_of_invalid hv]
    exact h.completed _ nofun

theorem Inv.finish_loadRaw {s : State} (h : Inv s) (k : Snapshot) : Inv (finish (loadRawResult k) s) := by
  by_cases hl : k.slen.toNat = 32
  · rw [loadRawResult_of_length hl]
    exact h.finish_load _
  · rw [loadRawResult_of_bad_length hl]
    exact h.completed _ nofun

theorem Inv.finish_step {s : State} (h : Inv s) (k : Snapshot) : Inv (finish (stepResult k) s) := by
  rw [finish_eq_applyWrites_completed]
  exact ((h.completed .none nofun).setStepOut _).setRemain _

theorem Inv.finish_gen {s : State} (h : Inv s) (ts : Bool) (cfg : Config) {k : Snapshot}
    (hk : k.seedValid = s.seedValid) : Inv (finish (genResult ts cfg k) s) := by
  rw [finish_eq_applyWrites_completed]
  cases hv : k.seedValid with
  | false =>
    rw [genResult_of_unprovisioned ts cfg hv]
    exact (h.completed .notProvisioned fun _ => hk.symm.trans hv).setCode (by simp) (.inr ⟨rfl, rfl⟩)
  | true =>
    have hc := secretCode_toNat cfg k.secret (counterOf ts k)
    have hi := ((h.completed .none nofun).setCode (hc.trans_lt (secretCode_lt _ _ _))
      (.inl (congrArg digits hc.symm))).setCounter ts k
    rw [genResult_of_provisioned ts cfg hv]
    rwa [← applyWrites_append] at hi

theorem Inv.finish_ver {s : State} (h : Inv s) (ts : Bool) (cfg : Config) {k : Snapshot}
    (hk : k.seedValid = s.seedValid) : Inv (finish (verResult ts cfg k) s) := by
  by_cases hc : ValidCand k.candLen k.cand
  · cases hv : k.seedValid with
    | false =>
      rw [verResult_of_unprovisioned ts cfg hc hv]
      exact h.completed _ fun _ => hk.symm.trans hv
    | true =>
      have hi := (h.completed .none nofun).setCounter ts k
      rw [verResult_of_provisioned ts cfg hc hv, finish_eq_applyWrites_completed,
        applyWrites_append]
      split
      · exact hi.setMatch (by simp) (by cases ts <;> exact hk.symm.trans hv)
      · exact hi
  · rw [verResult_of_malformed ts cfg hc]
    exact h.completed _ nofun

theorem Inv.finish_b32Enc {s : State} (h : Inv s) (cfg : Config) (k : Snapshot) :
    Inv (finish (b32EncResult cfg k) s) := by
  rw [finish_eq_applyWrites_completed]
  by_cases hl : 64 < k.slen.toNat
  · rw [b32EncResult_of_long cfg hl]
    exact (h.completed .length nofun).setB32 (by simp) (by simp)
  · have ht := b32_stagedBytes_length_le k cfg.b32Pad
    have hn : (BitVec.ofNat 7 (b32 (stagedBytes k) cfg.b32Pad).length).toNat =
        (b32 (stagedBytes k) cfg.b32Pad).length :=
      (BitVec.toNat_ofNat _ 7).trans (Nat.mod_eq_of_lt (by omega))
    rw [b32EncResult_of_short cfg (not_lt.1 hl)]
    exact (h.completed .none nofun).setB32 (hn.trans_le ht)
      fun i hi => b32Buffer_rest _ i (hn.symm.trans_le hi)

theorem Inv.finish_execute {s : State} (h : Inv s) (i : Instr) (cfg : Config) {k : Snapshot}
    (hk : k.seedValid = s.seedValid) : Inv (finish (execute i cfg k) s) := by
  cases i with
  | nop => exact h.completed .none nofun
  | loadHex => exact h.finish_loadHex k
  | loadRaw => exact h.finish_loadRaw k
  | step => exact h.finish_step k
  | genS => exact h.finish_gen false cfg hk
  | genT => exact h.finish_gen true cfg hk
  | verS => exact h.finish_ver false cfg hk
  | verT => exact h.finish_ver true cfg hk
  | b32Enc => exact h.finish_b32Enc cfg k

theorem Inv.complete {s t : State} (h : Inv s) (hc : complete s = .next t) : Inv t := by
  obtain ⟨-, hs⟩ | ⟨i, k, hp, hs⟩ | ⟨k, -, hs⟩ := complete_cases s
  all_goals cases hs.symm.trans hc
  · exact h
  · exact h.finish_execute i s.cfg (h.snap_slot _ hp).1
  · exact h.completed _ nofun

/-- Settles O36: the HOST's actions and the ENGINE's completion each keep the invariant. -/
theorem stepKeepsTheInvariant : Obligations.StepKeepsTheInvariant := by
  intro s t h hstep
  obtain ⟨rest, -, hc⟩ | ⟨a, rest, -, rfl⟩ := step_cases hstep
  · exact (h.withSchedule rest).complete hc
  · exact (h.withSchedule rest).hostStep a

end Sys2Proof.Machine
end

section
/-! PROOFS of the family 10_state: the secret slot, what writes it and who can see it (10_state R39, R40). -/

namespace Sys2Proof.Machine

/-! ### Writes that leave the secret slot -/

/-- The write is to a field outside the secret slot. -/
@[simp] def FieldWrite.keepsSlot : FieldWrite → Bool
  | .secret _    => false
  | .seedValid   => false
  | .matchFlag   => true
  | .code _      => true
  | .codeA _     => true
  | .stepOut _   => true
  | .remain _    => true
  | .b32Out _    => true
  | .b32OutLen _ => true

/-- Writes outside the slot neither read SECRET nor write it. -/
theorem applyWrites_withSecret {ws : List FieldWrite} (h : ∀ w ∈ ws, w.keepsSlot = true) (s : State)
    (key : Vector Byte 32) :
    applyWrites ws { s with secret := key } = { applyWrites ws s with secret := key } := by
  induction ws generalizing s with
  | nil => rfl
  | cons w ws ih =>
    obtain ⟨hw, hws⟩ := List.forall_mem_cons.1 h
    simp only [applyWrites_cons, ← ih hws]
    cases w with
    | secret => cases hw
    | _ => rfl

theorem applyWrites_slot {ws : List FieldWrite} (h : ∀ w ∈ ws, w.keepsSlot = true) (s : State) :
    (applyWrites ws s).secret = s.secret ∧ (applyWrites ws s).seedValid = s.seedValid := by
  induction ws generalizing s with
  | nil => exact ⟨rfl, rfl⟩
  | cons w ws ih =>
    obtain ⟨hw, hws⟩ := List.forall_mem_cons.1 h
    rw [applyWrites_cons, (ih hws _).1, (ih hws _).2]
    cases w with
    | secret => cases hw
    | seedValid => cases hw
    | _ => exact ⟨rfl, rfl⟩

theorem finish_withSecret {r : Result} (h : ∀ w ∈ r.writes, w.keepsSlot = true) (s : State)
    (key : Vector Byte 32) : finish r { s with secret := key } = { finish r s with secret := key } := by
  rw [finish_eq_applyWrites_completed, finish_eq_applyWrites_completed]
  exact applyWrites_withSecret h (s.completed r.err) key

theorem remainWrites_keepsSlot (ts : Bool) (k : Snapshot) : ∀ w ∈ remainWrites ts k, w.keepsSlot = true := by
  cases ts <;> simp

theorem genResult_keepsSlot (ts : Bool) (cfg : Config) (k : Snapshot) :
    ∀ w ∈ (genResult ts cfg k).writes, w.keepsSlot = true := by
  cases hv : k.seedValid with
  | false => simp [genResult_of_unprovisioned ts cfg hv]
  | true =>
    rw [genResult_of_provisioned ts cfg hv]
    exact List.forall_mem_append.2 ⟨by simp, remainWrites_keepsSlot ts k⟩

theorem verResult_keepsSlot (ts : Bool) (cfg : Config) (k : Snapshot) :
    ∀ w ∈ (verResult ts cfg k).writes, w.keepsSlot = true := by
  by_cases hc : ValidCand k.candLen k.cand
  · cases hv : k.seedValid with
    | false => simp [verResult_of_unprovisioned ts cfg hc hv]
    | true =>
      rw [verResult_of_provisioned ts cfg hc hv]
      refine List.forall_mem_append.2 ⟨List.forall_mem_append.2
        ⟨by simp, remainWrites_keepsSlot ts k⟩, ?_⟩
      split <;> simp
  · simp [verResult_of_malformed ts cfg hc]

theorem b32EncResult_keepsSlot (cfg : Config) (k : Snapshot) :
    ∀ w ∈ (b32EncResult cfg k).writes, w.keepsSlot = true := by
  by_cases hl : 64 < k.slen.toNat
  · simp [b32EncResult_of_long cfg hl]
  · simp [b32EncResult_of_short cfg (not_lt.1 hl)]

/-- A command commits a secret, which only a load without error does (42_seed R114), or leaves the
slot. -/
theorem execute_slot_cases (i : Instr) (cfg : Config) (k : Snapshot) :
    (∃ key, (i = .loadHex ∨ i = .loadRaw) ∧
      execute i cfg k = { err := .none, writes := commitWrites key }) ∨
    ∀ w ∈ (execute i cfg k).writes, w.keepsSlot = true := by
  cases i with
  | nop => exact .inr nofun
  | loadHex =>
    by_cases hv : ValidHex k.stage k.slen.toNat
    · exact .inl ⟨_, .inl rfl, loadHexResult_of_valid hv⟩
    · exact .inr (by simp [execute, loadHexResult_of_invalid hv])
  | loadRaw =>
    by_cases hl : k.slen.toNat = 32
    · exact .inl ⟨_, .inr rfl, loadRawResult_of_length hl⟩
    · exact .inr (by simp [execute, loadRawResult_of_bad_length hl])
  | step => exact .inr (by simp [execute, stepResult])
  | genS => exact .inr (genResult_keepsSlot false cfg k)
  | genT => exact .inr (genResult_keepsSlot true cfg k)
  | verS => exact .inr (verResult_keepsSlot false cfg k)
  | verT => exact .inr (verResult_keepsSlot true cfg k)
  | b32Enc => exact .inr (b32EncResult_keepsSlot cfg k)

/-! ### Who writes the slot -/

/-- A completion commits a secret or leaves the slot. -/
theorem complete_slot_cases {s t : State} (h : complete s = .next t) :
    (t.secret = s.secret ∧ t.seedValid = s.seedValid) ∨
    (t.err = .none ∧ t.seedValid = true ∧
      ∃ k, s.pending = some ⟨some .loadHex, k⟩ ∨ s.pending = some ⟨some .loadRaw, k⟩) := by
  obtain ⟨-, hc⟩ | ⟨i, k, hp, hc⟩ | ⟨k, -, hc⟩ := complete_cases s
  all_goals cases hc.symm.trans h
  · exact .inl ⟨rfl, rfl⟩
  · obtain ⟨key, hi, hr⟩ | hr := execute_slot_cases i s.cfg k
    · rw [hr]
      exact .inr ⟨rfl, rfl, k, hi.imp (by rintro rfl; exact hp) (by rintro rfl; exact hp)⟩
    · exact .inl (applyWrites_slot hr _)
  · exact .inl ⟨rfl, rfl⟩

/-- Only RESET, of the HOST's actions, touches the slot. -/
theorem hostStep_slot {a : HostAction} (ha : a ≠ .reset) (s : State) :
    (hostStep a s).secret = s.secret ∧ (hostStep a s).seedValid = s.seedValid := by
  cases a with
  | read off => exact ⟨rfl, rfl⟩
  | write off v => exact ⟨busWrite_secret off v s, busWrite_seedValid off v s⟩
  | reset => exact absurd rfl ha

/-- Settles O39: a step without RESET leaves the slot or is the commit of a load. -/
theorem secretSlotChangesOnlyByLoadOrReset : Obligations.SecretSlotChangesOnlyByLoadOrReset := by
  intro s t hstep hreset
  obtain ⟨rest, hnext, hc⟩ | ⟨a, rest, hs, rfl⟩ := step_cases hstep
  · obtain ⟨hk, hv⟩ | ⟨he, hv, hp⟩ := complete_slot_cases hc
    · exact ⟨fun hne => absurd hne (by simp [hk, hv]), hv.trans⟩
    · exact ⟨fun _ => ⟨hnext, he, hv, hp⟩, fun _ => hv⟩
  · have ha : a ≠ .reset := by
      rintro rfl
      simp [State.resetNext, hs] at hreset
    obtain ⟨hk, hv⟩ := hostStep_slot ha (s.withSchedule rest)
    exact ⟨fun hne => absurd hne (by simp [hk, hv]), hv.trans⟩

end Sys2Proof.Machine
end

section
/-! PROOFS of the family 10_state: what SECRET held before the first load is unobservable (10_state R39,
93 I5). The relation `SameUntilLoaded` is a simulation in both directions: each agent's turn keeps it. -/

namespace Sys2Proof.Machine

/-! ### States that differ in the hidden fields -/

/-- The state with other hidden fields: SECRET and the pending command. -/
def State.withHidden (s : State) (key : Vector Byte 32) (p : Option Pending) : State :=
  { s with secret := key, pending := p }

theorem sameUntilLoaded_iff {s t : State} :
    SameUntilLoaded s t ↔ ∃ key p, t = s.withHidden key p ∧ (s.seedValid = true → key = s.secret)
      ∧ SamePending s.pending p := by
  constructor
  · rintro ⟨ht, hk, hp⟩
    exact ⟨t.secret, t.pending, ht, hk, hp⟩
  · rintro ⟨key, p, rfl, hk, hp⟩
    exact ⟨rfl, hk, hp⟩

theorem SameSnapshot.refl (k : Snapshot) : SameSnapshot k k := ⟨rfl, fun _ => rfl⟩

theorem SamePending.refl (p : Option Pending) : SamePending p p := by
  cases p with
  | none => trivial
  | some p => exact ⟨rfl, .refl p.snap⟩

theorem SameUntilLoaded.refl (s : State) : SameUntilLoaded s s := ⟨rfl, fun _ => rfl, .refl _⟩

theorem SamePending.isSome_eq {p q : Option Pending} (h : SamePending p q) : q.isSome = p.isSome :=
  match p, q, h with
  | none, none, _ => rfl
  | some _, some _, _ => rfl

theorem samePending_none_left {q : Option Pending} : SamePending none q ↔ q = none := by
  cases q <;> simp [SamePending]

theorem samePending_some_left {p : Pending} {q : Option Pending} :
    SamePending (some p) q ↔ ∃ l, q = some ⟨p.cmd, l⟩ ∧ SameSnapshot p.snap l := by
  constructor
  · intro h
    cases q with
    | none => exact h.elim
    | some q =>
      obtain ⟨hc, hl⟩ := h
      exact ⟨q.snap, by rw [← hc], hl⟩
  · rintro ⟨l, rfl, hl⟩
    exact ⟨rfl, hl⟩

/-! ### The HOST -/

/-- A read sees of the hidden fields only whether a command is pending, in STATUS.BUSY. -/
theorem readReg_withHidden (r : Reg) (s : State) (key : Vector Byte 32) {p : Option Pending}
    (hp : p.isSome = s.pending.isSome) : readReg r (s.withHidden key p) = readReg r s := by
  cases r with
  | status => simp only [readReg, statusWord, State.busy, State.withHidden, hp]
  | _ => rfl

theorem busRead_withHidden (off : Offset) (s : State) (key : Vector Byte 32) {p : Option Pending}
    (hp : p.isSome = s.pending.isSome) : busRead off (s.withHidden key p) = busRead off s := by
  unfold busRead
  split
  · exact readReg_withHidden _ s key hp
  · rfl

theorem SameUntilLoaded.busRead_eq {s t : State} (h : SameUntilLoaded s t) (off : Offset) :
    busRead off t = busRead off s := by
  obtain ⟨key, p, rfl, -, hp⟩ := sameUntilLoaded_iff.1 h
  exact busRead_withHidden off s key hp.isSome_eq

/-- An issue latches what each state holds of SECRET, so the snapshots differ there at most. -/
theorem SameUntilLoaded.issue {s t : State} (h : SameUntilLoaded s t) (v : Word) :
    SameUntilLoaded (issue v s) (issue v t) := by
  obtain ⟨key, p, rfl, hk, hp⟩ := sameUntilLoaded_iff.1 h
  cases hs : s.pending with
  | none =>
    obtain rfl := samePending_none_left.1 (hs ▸ hp)
    rw [issue_of_idle v hs, issue_of_idle (s := s.withHidden key none) v rfl]
    exact sameUntilLoaded_iff.2 ⟨key, _, rfl, hk, rfl, rfl, hk⟩
  | some q =>
    obtain ⟨l, rfl, hl⟩ := samePending_some_left.1 (hs ▸ hp)
    rw [issue_of_pending v hs, issue_of_pending (s := s.withHidden key _) v rfl]
    exact sameUntilLoaded_iff.2 ⟨key, _, rfl, hk, hp⟩

/-- Writes to a register but CMD and the hidden fields do not touch. -/
theorem writeReg_withHidden {r : Reg} (hr : r ≠ .cmd) (v : Word) (s : State) (key : Vector Byte 32)
    (p : Option Pending) : writeReg r v (s.withHidden key p) = (writeReg r v s).withHidden key p := by
  cases r with
  | cmd => exact absurd rfl hr
  | status =>
    simp only [writeReg, writeStatus]
    split <;> rfl
  | _ => rfl

theorem SameUntilLoaded.writeReg {s t : State} (h : SameUntilLoaded s t) (r : Reg) (v : Word) :
    SameUntilLoaded (writeReg r v s) (writeReg r v t) := by
  by_cases hr : r = .cmd
  · subst hr
    exact h.issue v
  · obtain ⟨key, p, rfl, hk, hp⟩ := sameUntilLoaded_iff.1 h
    refine sameUntilLoaded_iff.2 ⟨key, p, writeReg_withHidden hr v s key p, by simpa using hk, ?_⟩
    obtain hw | ⟨-, hc, -⟩ := writeReg_pending r v s
    · rwa [hw]
    · exact absurd hc hr

theorem SameUntilLoaded.busWrite {s t : State} (h : SameUntilLoaded s t) (off : Offset) (v : Word) :
    SameUntilLoaded (busWrite off v s) (busWrite off v t) := by
  unfold Machine.busWrite
  split
  · exact h.writeReg _ v
  · exact h

theorem SameUntilLoaded.withSchedule {s t : State} (h : SameUntilLoaded s t) (ts : List Turn) :
    SameUntilLoaded (s.withSchedule ts) (t.withSchedule ts) := by
  obtain ⟨key, p, rfl, hk, hp⟩ := sameUntilLoaded_iff.1 h
  exact sameUntilLoaded_iff.2 ⟨key, p, rfl, hk, hp⟩

theorem SameUntilLoaded.withReply {s t : State} (h : SameUntilLoaded s t) (w : Word) :
    SameUntilLoaded (s.withReply w) (t.withReply w) := by
  obtain ⟨key, p, rfl, hk, hp⟩ := sameUntilLoaded_iff.1 h
  exact sameUntilLoaded_iff.2 ⟨key, p, rfl, hk, hp⟩

/-- RESET clears the hidden fields. -/
theorem SameUntilLoaded.hostReset_eq {s t : State} (h : SameUntilLoaded s t) :
    hostReset t = hostReset s := by
  obtain ⟨key, p, rfl, -, -⟩ := sameUntilLoaded_iff.1 h
  rfl

theorem SameUntilLoaded.hostStep {s t : State} (h : SameUntilLoaded s t) (a : HostAction) :
    SameUntilLoaded (hostStep a s) (hostStep a t) := by
  cases a with
  | read off =>
    simp only [Machine.hostStep, h.busRead_eq off]
    exact h.withReply _
  | write off v => exact h.busWrite off v
  | reset =>
    simp only [Machine.hostStep, h.hostReset_eq]
    exact .refl _

/-! ### The ENGINE -/

/-- A command reads SECRET only after it has seen SEED_VALID = 1 (44_totp R170, R172). -/
theorem SameSnapshot.execute_eq {k l : Snapshot} (h : SameSnapshot k l) (i : Instr) (cfg : Config) :
    execute i cfg l = execute i cfg k := by
  obtain ⟨hl, hs⟩ := h
  cases hv : k.seedValid with
  | true => rw [hl, hs hv]
  | false =>
    have hv' : l.seedValid = false := by rw [hl, hv]
    have hgen : ∀ ts, genResult ts cfg l = genResult ts cfg k := fun ts => by
      rw [genResult_of_unprovisioned ts cfg hv, genResult_of_unprovisioned ts cfg hv']
    have hver : ∀ ts, verResult ts cfg l = verResult ts cfg k := fun ts => by
      have hc' : ValidCand l.candLen l.cand ↔ ValidCand k.candLen k.cand := by rw [hl]
      by_cases hc : ValidCand k.candLen k.cand
      · rw [verResult_of_unprovisioned ts cfg hc hv, verResult_of_unprovisioned ts cfg (hc'.2 hc) hv']
      · rw [verResult_of_malformed ts cfg hc, verResult_of_malformed ts cfg (mt hc'.1 hc)]
    cases i with
    | genS => exact hgen false
    | genT => exact hgen true
    | verS => exact hver false
    | verT => exact hver true
    | _ => rw [hl]; rfl

/-- A result that a command gives makes related states out of related states: a commit makes the slots
equal, and no other write reads SECRET. -/
theorem SameUntilLoaded.finish_execute {s t : State} (h : SameUntilLoaded s t) (i : Instr)
    (cfg : Config) (k : Snapshot) :
    SameUntilLoaded (finish (execute i cfg k) s) (finish (execute i cfg k) t) := by
  obtain ⟨key, p, rfl, hk, -⟩ := sameUntilLoaded_iff.1 h
  have hf : finish (execute i cfg k) (s.withHidden key p) =
      finish (execute i cfg k) { s with secret := key } :=
    finish_withPending _ p { s with secret := key }
  rw [hf]
  obtain ⟨new, -, hr⟩ | hr := execute_slot_cases i cfg k
  · rw [hr]
    exact .refl _
  · obtain ⟨hsec, hval⟩ := applyWrites_slot hr { s with matchFlag := false }
    rw [finish_withSecret hr s key]
    refine sameUntilLoaded_iff.2 ⟨key, none, rfl, fun hv => ?_, trivial⟩
    rw [finish_secret, hsec]
    exact hk (hval.symm.trans hv)

theorem SameUntilLoaded.completed {s t : State} (h : SameUntilLoaded s t) (e : ErrCode) :
    SameUntilLoaded (s.completed e) (t.completed e) := by
  obtain ⟨key, p, rfl, hk, -⟩ := sameUntilLoaded_iff.1 h
  exact sameUntilLoaded_iff.2 ⟨key, none, rfl, hk, trivial⟩

theorem SameUntilLoaded.complete {s t s' t' : State} (h : SameUntilLoaded s t)
    (hs : complete s = .next s') (ht : complete t = .next t') : SameUntilLoaded s' t' := by
  obtain ⟨hcfg, hpend⟩ : t.cfg = s.cfg ∧ SamePending s.pending t.pending := ⟨by rw [h.1], h.2.2⟩
  obtain ⟨hp, hc⟩ | ⟨i, k, hp, hc⟩ | ⟨k, hp, hc⟩ := complete_cases s
  all_goals
    cases hc.symm.trans hs
    rw [hp] at hpend
  · cases (complete_of_idle (samePending_none_left.1 hpend)).symm.trans ht
    exact h
  · obtain ⟨l, hq, hl⟩ := samePending_some_left.1 hpend
    rw [complete_of_legal hq, exec_eq_finish, operands_of_pending hq, hcfg, hl.execute_eq] at ht
    cases ht
    exact h.finish_execute i s.cfg k
  · obtain ⟨l, hq, -⟩ := samePending_some_left.1 hpend
    cases (complete_of_illegal hq).symm.trans ht
    exact h.completed .illegal

/-! ### Steps and runs -/

theorem SameUntilLoaded.schedule_eq {s t : State} (h : SameUntilLoaded s t) :
    t.schedule = s.schedule := by
  rw [h.1]

theorem SameUntilLoaded.replies_eq {s t : State} (h : SameUntilLoaded s t) : t.replies = s.replies := by
  rw [h.1]

theorem SameUntilLoaded.step {s t s' t' : State} (h : SameUntilLoaded s t)
    (hs : step s = .next s') (ht : step t = .next t') : SameUntilLoaded s' t' := by
  match hsched : s.schedule with
  | [] =>
    rw [step_of_empty hsched] at hs
    rw [step_of_empty (h.schedule_eq.trans hsched)] at ht
    exact h.complete hs ht
  | .engine :: rest =>
    rw [step_of_engine hsched] at hs
    rw [step_of_engine (h.schedule_eq.trans hsched)] at ht
    exact (h.withSchedule rest).complete hs ht
  | .host a :: rest =>
    cases (step_of_host hsched).symm.trans hs
    cases (step_of_host (h.schedule_eq.trans hsched)).symm.trans ht
    exact (h.withSchedule rest).hostStep a

theorem SameUntilLoaded.run {n : Nat} {s t s' t' : State} (h : SameUntilLoaded s t)
    (hs : core.run n s = .next s') (ht : core.run n t = .next t') : SameUntilLoaded s' t' := by
  induction n generalizing s t with
  | zero =>
    obtain rfl : s = s' := Host.Outcome.next.inj hs
    obtain rfl : t = t' := Host.Outcome.next.inj ht
    exact h
  | succ n ih =>
    obtain ⟨u, hu, hs⟩ := exists_step_of_run_succ hs
    obtain ⟨w, hw, ht⟩ := exists_step_of_run_succ ht
    exact ih (h.step hu hw) hs ht

/-- Settles O43: a run keeps the relation, and related states hold the same replies. -/
theorem unloadedSecretIsUnobservable : Obligations.UnloadedSecretIsUnobservable := by
  intro n s t s' t' h hs ht
  have h' := h.run hs ht
  exact ⟨h', h'.replies_eq.symm⟩

end Sys2Proof.Machine
end

section
/-! PROOFS of the family 10_state: issue and completion of a command (10_state R40 to R42). -/

namespace Sys2Proof.Machine

/-! ### Issue -/

/-- A decoded word is the word of its command (30_encoding R72). -/
theorem encode_of_decode {v : Word} {i : Instr} (h : decode v = .ok i) : encode i = v := by
  have hr : (CommandFields.ofWord v).rsv = 0 := by
    by_contra hr
    rw [decode, decodeFields_of_rsv hr] at h
    cases h
  have hf : CommandFields.ofWord v = ⟨0, (CommandFields.ofWord v).ts, (CommandFields.ofWord v).op⟩ := by
    rw [← hr]
  have hi : i.fields = CommandFields.ofWord v := by
    rw [hf]
    refine fields_of_decodeFields _ _ i ?_
    rw [← hf, ← decode, h]
    rfl
  rw [encode, hi, CommandFields.toWord_ofWord]

/-- The words whose issue clears STAGE are those of LOADHEX and LOADRAW (10_state R42). -/
theorem clearsStage_decode (v : Word) : clearsStage (decode v).toOption = true ↔ v = 1 ∨ v = 2 := by
  constructor
  · intro h
    cases hd : decode v with
    | error e => simp [hd, Except.toOption, clearsStage] at h
    | ok i =>
      obtain rfl := encode_of_decode hd
      revert h
      rw [hd]
      cases i <;> decide
  · rintro (rfl | rfl) <;> decide

/-- Settles O20: an idle block latches, a busy one overruns. -/
theorem issueLatchesOrOverruns : Obligations.IssueLatchesOrOverruns := by
  intro s v
  refine ⟨fun h => ?_, fun p h => ?_, rfl⟩
  · simp only [busWrite_cmd, issue_of_idle v h, clearsStage_decode]
    rfl
  · rw [busWrite_cmd, issue_of_pending v h]

/-- Settles O32: a meaning is `finish` of a function of the parameters and the snapshot, and no write of
the HOST touches a pending command. -/
theorem resultDependsOnSnapshotOnly : Obligations.ResultDependsOnSnapshotOnly := by
  refine ⟨fun i cfg k => ⟨execute i cfg k, fun s hcfg hp => ?_⟩, fun s p off v hp => ?_⟩
  · rw [exec_eq_finish, operands_of_pending hp, hcfg]
  · exact hostStep_pending_of_busy (a := .write off v) hp nofun

/-! ### Completion -/

/-- Settles O6: the latch of a legal word, the ENGINE's turn, and the step with no turn left. -/
theorem stepRunsTheDecodedCommand : Obligations.StepRunsTheDecodedCommand := by
  refine ⟨fun s v i rest hd hp hs => ⟨_, step_of_host hs, ?_, ?_⟩,
    fun s i k rest hp hs => ?_, fun s i k hp hs => ?_, fun s k hp hs => ?_⟩
  · have hi : (s.withSchedule rest).pending = none := hp
    simp only [hostStep, busWrite_cmd, issue_of_idle v hi, hd]
    rfl
  · rw [hostStep_schedule, State.withSchedule_schedule]
  · rw [step_of_engine hs, complete_of_legal (s := s.withSchedule rest) hp]
  · rw [step_of_empty hs, complete_of_legal hp]
  · rw [step_of_empty hs, complete_of_illegal hp]

/-- `Complete` is enabled on every pending command and ends it (10_state R41). -/
theorem exists_complete_of_pending {s : State} {p : Pending} (h : s.pending = some p) :
    ∃ u, complete s = .next u ∧ u.pending = none ∧ u.done = true := by
  obtain ⟨hp, -⟩ | ⟨i, k, -, hc⟩ | ⟨k, -, hc⟩ := complete_cases s
  · simp [h] at hp
  · exact ⟨_, hc, rfl, rfl⟩
  · exact ⟨_, hc, rfl, rfl⟩

/-- A step at which the ENGINE is next ends the pending command. -/
theorem exists_step_of_engineNext {s : State} {p : Pending} (h : s.pending = some p)
    (hn : s.engineNext = true) : ∃ u, step s = .next u ∧ u.pending = none ∧ u.done = true := by
  match hs : s.schedule with
  | [] => exact step_of_empty hs ▸ exists_complete_of_pending h
  | .engine :: rest =>
    exact step_of_engine hs ▸ exists_complete_of_pending (s := s.withSchedule rest) h
  | .host a :: rest => simp [State.engineNext, hs] at hn

/-- Without RESET, the turns of the HOST pass and leave the command pending until the ENGINE is next. -/
theorem exists_run_to_engineNext {p : Pending} {ts : List Turn} {s : State} (hs : s.schedule = ts)
    (hp : s.pending = some p) (hreset : .host .reset ∉ ts) :
    ∃ n t, n ≤ ts.length ∧ core.run n s = .next t ∧ t.pending = some p ∧ t.engineNext = true := by
  induction ts generalizing s with
  | nil => exact ⟨0, s, le_rfl, run_zero s, hp, by simp [State.engineNext, hs]⟩
  | cons turn rest ih =>
    cases turn with
    | engine => exact ⟨0, s, Nat.zero_le _, run_zero s, hp, by simp [State.engineNext, hs]⟩
    | host a =>
      obtain ⟨ha, hrest⟩ : a ≠ .reset ∧ .host .reset ∉ rest := by simpa [eq_comm] using hreset
      obtain ⟨n, t, hn, hrun, ht⟩ := ih (hostStep_schedule a (s.withSchedule rest))
        (hostStep_pending_of_busy (s := s.withSchedule rest) hp ha) hrest
      exact ⟨n + 1, t, Nat.succ_le_succ hn, (run_succ (step_of_host hs)).trans hrun, ht⟩

/-- Settles O8, by induction on the turns to come. -/
theorem pendingCommandCompletes : Obligations.PendingCommandCompletes := by
  intro s p hp hreset
  obtain ⟨n, t, hn, hrun, ht, hnext⟩ := exists_run_to_engineNext rfl hp hreset
  exact ⟨n, t, hn, hrun, ht, hnext, exists_step_of_engineNext ht hnext⟩

end Sys2Proof.Machine
end

section
/-! PROOFS of the family 10_state: the registers of the window (10_state R22 to R38, R43). -/

namespace Sys2Proof.Machine

/-- The offset of a register reaches that register. -/
theorem regAt_offset (r : Reg) : regAt r.offset = some r := by
  cases r with
  | stage k => exact regAt_stage k
  | b32Out k => exact regAt_b32Out k
  | _ => rfl

/-- Settles O10: the offset of a register reaches it, and what an offset reaches has that offset. -/
theorem registerMapIsUnambiguous : Obligations.RegisterMapIsUnambiguous := by
  intro off r
  constructor
  · exact fun h => (regAt_cases h).1
  · rintro rfl
    exact regAt_offset r

theorem busRead_offset (r : Reg) (s : State) : busRead r.offset s = readReg r s := by
  simp only [busRead, regAt_offset]

theorem busWrite_offset (r : Reg) (v : Word) (s : State) : busWrite r.offset v s = writeReg r v s := by
  simp only [busWrite, regAt_offset]

/-! ### Two-word inputs -/

theorem setLowWord_toNat (c : Counter) (v : Word) :
    (setLowWord c v).toNat = (highWord c).toNat * 2 ^ 32 + v.toNat := by
  rw [counter_toNat, highWord_setLowWord, lowWord_setLowWord]

theorem setHighWord_toNat (c : Counter) (v : Word) :
    (setHighWord c v).toNat = v.toNat * 2 ^ 32 + (lowWord c).toNat := by
  rw [counter_toNat, highWord_setHighWord, lowWord_setHighWord]

/-- Settles O16: each half is a word of the counter, and a write replaces that word. -/
theorem wideInputsAreTwoWords : Obligations.WideInputsAreTwoWords := by
  intro s v
  exact ⟨counter_toNat s.timeIn, counter_toNat s.stepIn,
    ⟨_, busWrite_offset .timeLo v s, setLowWord_toNat s.timeIn v⟩,
    ⟨_, busWrite_offset .timeHi v s, setHighWord_toNat s.timeIn v⟩,
    ⟨_, busWrite_offset .stepLo v s, setLowWord_toNat s.stepIn v⟩,
    ⟨_, busWrite_offset .stepHi v s, setHighWord_toNat s.stepIn v⟩⟩

/-! ### Buffers -/

/-- Settles O18: the write puts its four bytes into the buffer's word. -/
theorem bufferWritesReplaceOneWord : Obligations.BufferWritesReplaceOneWord := by
  intro s v
  constructor
  · intro k
    exact ⟨setBufWord s.stage k.val v, busWrite_offset (.stage k) v s,
      (busRead_offset (.stage k) _).trans (bufWord_setBufWord _ _ v (by omega)),
      fun i hi => setBufWord_of_other _ _ v i hi⟩
  · refine Fin.forall_fin_two.2 ⟨?_, ?_⟩
    · exact ⟨setBufWord s.cand 0 v, busWrite_offset .candLo v s,
        (busRead_offset .candLo _).trans (bufWord_setBufWord _ _ v (by omega)),
        fun i hi => setBufWord_of_other _ _ v i hi⟩
    · exact ⟨setBufWord s.cand 1 v, busWrite_offset .candHi v s,
        (busRead_offset .candHi _).trans (bufWord_setBufWord _ _ v (by omega)),
        fun i hi => setBufWord_of_other _ _ v i hi⟩

/-! ### Byte inputs and results -/

/-- Settles O15: the field takes the low eight bits of the word and reads back zero-extended. -/
theorem byteInputsStoreAndReadBack : Obligations.ByteInputsStoreAndReadBack := by
  intro s v
  have hread (b : BitVec 8) : (b.setWidth 32).toNat = b.toNat :=
    BitVec.toNat_setWidth_of_le (by decide)
  exact ⟨v.setWidth 8, BitVec.toNat_setWidth 8 v, busWrite_offset .window v s,
    busWrite_offset .slen v s, busWrite_offset .candLen v s, hread s.window, hread s.slen,
    hread s.candLen⟩

/-- Settles O19: a result register reads its field zero-extended, STEP_OUT as two words. -/
theorem resultRegistersReadTheirFields : Obligations.ResultRegistersReadTheirFields := by
  intro s
  exact ⟨BitVec.toNat_setWidth_of_le (by decide), BitVec.toNat_setWidth_of_le (by decide),
    counter_toNat s.stepOut, BitVec.toNat_setWidth_of_le (by decide)⟩

/-! ### ID, CFG and STATUS -/

/-- The two parameter bits of CFG and the reserved bits above them (10_state R23). -/
theorem cfgWord_bits (c : Config) :
    ((cfgWord c).getLsbD 0 = true ↔ c.keyMode = .b32Ascii)
    ∧ ((cfgWord c).getLsbD 1 = true ↔ c.b32Pad = .pad) ∧ (cfgWord c).extractLsb' 2 30 = 0 := by
  obtain ⟨m, p⟩ := c
  cases m <;> cases p <;> decide

/-- Settles O13: CFG reads a function of the parameters, which no step changes. -/
theorem identificationAndParametersRead : Obligations.IdentificationAndParametersRead := by
  intro s
  obtain ⟨hmode, hpad, hrest⟩ := cfgWord_bits s.cfg
  exact ⟨rfl, hmode, hpad, hrest, fun v => ⟨busWrite_offset .id v s, busWrite_offset .cfg v s⟩,
    fun t ht => congrArg cfgWord (step_cfg ht)⟩

theorem statusWord_flags (s : State) :
    (statusWord s).getLsbD 0 = s.busy ∧ (statusWord s).getLsbD 1 = s.done
    ∧ (statusWord s).getLsbD 2 = s.seedValid ∧ (statusWord s).getLsbD 3 = s.matchFlag
    ∧ (statusWord s).getLsbD 4 = s.ovr := by
  simp only [statusWord, BitVec.getLsbD_append]
  simp

/-- Above the five flags STATUS holds ERR between reserved bits (10_state R25). -/
theorem statusWord_above_flags (s : State) {start len : Nat} (h : 5 ≤ start) :
    (statusWord s).extractLsb' start len =
      ((0 : BitVec 20) ++ s.err.bits ++ (0 : BitVec 3)).extractLsb' (start - 5) len := by
  rw [statusWord]
  iterate 5 rw [BitVec.extractLsb'_append_eq_of_le (by omega)]
  rfl

theorem statusWord_err (s : State) : (statusWord s).extractLsb' 8 4 = s.err.bits := by
  rw [statusWord_above_flags s (by decide), BitVec.extractLsb'_append_eq_of_le (by decide)]
  exact BitVec.extractLsb'_append_eq_right

theorem statusWord_reserved (s : State) :
    (statusWord s).extractLsb' 5 3 = 0 ∧ (statusWord s).extractLsb' 12 20 = 0 := by
  rw [statusWord_above_flags s (by decide), statusWord_above_flags s (by decide)]
  constructor
  · exact BitVec.extractLsb'_append_eq_right
  · rw [BitVec.extractLsb'_append_eq_of_le (by decide)]
    exact BitVec.extractLsb'_append_eq_left

/-- Settles O14: the fields of STATUS lie at their bits, and only bit 4 of a write counts. -/
theorem statusFieldsAndOverrunClear : Obligations.StatusFieldsAndOverrunClear := by
  intro s
  obtain ⟨hbusy, hdone, hseed, hmatch, hovr⟩ := statusWord_flags s
  obtain ⟨hlow, hhigh⟩ := statusWord_reserved s
  refine ⟨fun v => ⟨fun hv => if_pos hv, fun hv => if_neg (by rw [hv]; decide)⟩, hbusy, hdone, hseed,
    hmatch, hovr, hlow, hhigh, (statusWord_err s).trans ?_⟩
  cases s.err <;> rfl

end Sys2Proof.Machine
end

section
/-! PROOFS of the family 20_memory: the register window and its byte order (20_memory R50 to R59). -/

namespace Sys2Proof.Machine

/-! ### Offsets that reach no register -/

theorem busRead_of_unreached {off : Offset} (h : regAt off = none) (s : State) : busRead off s = 0 := by
  simp only [busRead, h]

theorem busWrite_of_unreached {off : Offset} (h : regAt off = none) (v : Word) (s : State) :
    busWrite off v s = s := by
  simp only [busWrite, h]

theorem Reg.offset_stage_toNat (k : Fin 16) : (Reg.stage k).offset.toNat = 0x080 + 4 * k.val := by
  simp only [Reg.offset, BitVec.toNat_ofNat]
  omega

theorem Reg.offset_b32Out_toNat (k : Fin 26) : (Reg.b32Out k).offset.toNat = 0x100 + 4 * k.val := by
  simp only [Reg.offset, BitVec.toNat_ofNat]
  omega

/-- The mapped ranges of the window (10_state R43). -/
theorem Reg.offset_mapped (r : Reg) :
    r.offset.toNat < 0x01C ∨ (0x020 ≤ r.offset.toNat ∧ r.offset.toNat < 0x038)
      ∨ (0x040 ≤ r.offset.toNat ∧ r.offset.toNat < 0x05C)
      ∨ (0x080 ≤ r.offset.toNat ∧ r.offset.toNat < 0x0C0)
      ∨ (0x100 ≤ r.offset.toNat ∧ r.offset.toNat < 0x168) := by
  cases r with
  | stage k => rw [offset_stage_toNat]; omega
  | b32Out k => rw [offset_b32Out_toNat]; omega
  | _ => decide

/-- Settles O11: such an offset is no register's, as those are aligned and in the mapped ranges. -/
theorem unalignedAndReservedOffsetsAreRazWi : Obligations.UnalignedAndReservedOffsetsAreRazWi := by
  intro s off v h
  have hnone : regAt off = none := by
    rw [Option.eq_none_iff_forall_ne_some]
    intro r hr
    obtain ⟨rfl, haligned, -⟩ := regAt_cases hr
    have hmapped := r.offset_mapped
    omega
  exact ⟨busRead_of_unreached hnone s, busWrite_of_unreached hnone v s⟩

/-! ### Read-only registers -/

/-- A register with one of the read-only offsets of 10_state R43 ignores a write (20_memory R59). -/
theorem writeReg_of_readOnly_offset {r : Reg} (v : Word) (s : State)
    (h : r.offset = 0x000 ∨ r.offset = 0x004 ∨ (0x040 ≤ r.offset.toNat ∧ r.offset.toNat < 0x05C)
      ∨ (0x100 ≤ r.offset.toNat ∧ r.offset.toNat < 0x168)) : writeReg r v s = s := by
  cases r with
  | id | cfg | code | codeALo | codeAHi | remain | stepOutLo | stepOutHi | b32OutLen | b32Out k => rfl
  | stage k =>
    have hk := Reg.offset_stage_toNat k
    bv_omega
  | _ => exact absurd h (by decide)

/-- Settles O12: an offset in these ranges reaches a read-only register or none. -/
theorem readOnlyRegistersIgnoreWrites : Obligations.ReadOnlyRegistersIgnoreWrites := by
  intro s off v h
  cases hr : regAt off with
  | none => exact busWrite_of_unreached hr v s
  | some r =>
    obtain ⟨rfl, -⟩ := regAt_cases hr
    rw [busWrite_offset, writeReg_of_readOnly_offset v s h]

/-! ### Byte lanes and the words of 64-bit values -/

theorem bufWord_toNat_of_lt {n : Nat} (b : Vector Byte n) {k : Nat} (h : 4 * k + 3 < n) :
    (bufWord b k).toNat = b[4 * k].toNat + 256 * b[4 * k + 1].toNat
      + 65536 * b[4 * k + 2].toNat + 16777216 * b[4 * k + 3].toNat := by
  rw [bufWord_toNat, lane_of_lt, lane_of_lt, lane_of_lt, lane_of_lt]

/-- CODE_A_HI holds two bytes; its upper lanes are reserved (10_state R34). -/
theorem codeA_high_toNat (b : Vector Byte 6) :
    (bufWord b 1).toNat = b[4].toNat + 256 * b[5].toNat := by
  rw [bufWord_toNat, lane_of_lt b (by decide), lane_of_lt b (by decide), lane_of_ge b (by decide),
    lane_of_ge b (by decide)]
  rfl

theorem lowWord_toNat (c : Counter) : (lowWord c).toNat = c.toNat % 2 ^ 32 := by
  simp only [lowWord, BitVec.extractLsb'_toNat, Nat.shiftRight_zero]

theorem highWord_toNat (c : Counter) : (highWord c).toNat = c.toNat / 2 ^ 32 := by
  have hc := counter_toNat c
  have hlow := (lowWord c).isLt
  omega

/-- Settles O17: a read at each offset is its register's word, and the word's value is by its lanes. -/
theorem bufferWordsAreLeastSignificantLaneFirst :
    Obligations.BufferWordsAreLeastSignificantLaneFirst := by
  intro s
  refine ⟨fun k => ?_, fun k => ?_, bufWord_toNat_of_lt s.cand (k := 0) (by decide),
    bufWord_toNat_of_lt s.cand (k := 1) (by decide), bufWord_toNat_of_lt s.codeA (k := 0) (by decide),
    codeA_high_toNat s.codeA, lowWord_toNat s.timeIn, highWord_toNat s.timeIn, lowWord_toNat s.stepIn,
    highWord_toNat s.stepIn, lowWord_toNat s.stepOut, highWord_toNat s.stepOut⟩
  · have hread := congrArg BitVec.toNat (busRead_offset (.stage k) s)
    exact hread.trans (bufWord_toNat_of_lt s.stage (by omega))
  · have hread := congrArg BitVec.toNat (busRead_offset (.b32Out k) s)
    exact hread.trans (bufWord_toNat_of_lt s.b32Out (by omega))

/-! ### Big-endian byte strings -/

theorem be_getElem (n x : Nat) (i : Fin n) :
    (be n x)[i] = BitVec.ofNat 8 (x / 256 ^ (n - 1 - i.val)) := by
  simp only [be, Fin.getElem_fin, Vector.getElem_ofFn]

/-- The last byte is the least significant one, and the bytes before it are the string of the rest. -/
theorem be_succ_toList (n x : Nat) :
    (be (n + 1) x).toList = (be n (x / 256)).toList ++ [BitVec.ofNat 8 x] := by
  simp only [be, Vector.toList_ofFn, List.ofFn_succ_last]
  congr 2
  · funext i
    have hexp : n + 1 - 1 - i.val = n - 1 - i.val + 1 := by omega
    rw [Fin.val_castSucc, hexp, pow_succ', Nat.div_div_eq_div_mul]
  · simp

theorem fromBe_append_singleton (s : List Byte) (b : Byte) :
    fromBe (s ++ [b]) = fromBe s * 256 + b.toNat := by
  simp only [fromBe, List.foldl_append, List.foldl_cons, List.foldl_nil]

/-- `from_be` inverts `be_N` on the naturals below 256^N (00_scope R9). -/
theorem fromBe_be (n x : Nat) : fromBe (be n x).toList = x % 256 ^ n := by
  induction n generalizing x with
  | zero => exact (Nat.mod_one x).symm
  | succ n ih =>
    rw [be_succ_toList, fromBe_append_singleton, ih, BitVec.toNat_ofNat, pow_succ' 256 n, Nat.mod_mul]
    omega

/-- Settles O54: byte i of the message is the counter shifted down by its 56 - 8i low bits. -/
theorem counterMessageIsBigEndian : Obligations.CounterMessageIsBigEndian := by
  intro key c
  refine ⟨be 8 c.toNat, fun i => ?_, ?_, rfl⟩
  · have hexp : 56 - 8 * i.val = 8 * (8 - 1 - i.val) := by omega
    have hpow : 2 ^ (56 - 8 * i.val) = 256 ^ (8 - 1 - i.val) := by rw [hexp, Nat.pow_mul]
    rw [be_getElem, BitVec.extractLsb', Nat.shiftRight_eq_div_pow, hpow]
  · rw [fromBe_be]
    exact Nat.mod_eq_of_lt c.isLt

/-! ### The turns of the HOST -/

theorem step_of_read {s : State} {off : Offset} {rest : List Turn}
    (h : s.schedule = .host (.read off) :: rest) :
    step s = .next ((s.withSchedule rest).withReply (busRead off s)) := by
  rw [step_of_host h, hostStep, busRead_withSchedule]

/-- Settles O9: a read only logs its word, on which no later read depends; a write is the window's, and
RESET keeps the model's own fields. -/
theorem busTurnsReadAndWriteTheWindow : Obligations.BusTurnsReadAndWriteTheWindow := by
  refine ⟨fun s off rest hs => step_of_read hs, fun s off rest hs => ?_,
    fun s off v rest hs => step_of_host hs,
    fun s rest hs => ⟨_, step_of_host hs, hostReset_schedule _, hostReset_replies _⟩⟩
  rw [run_succ (step_of_read hs), run_succ (step_of_read rfl), run_zero, busRead_withReply,
    busRead_withSchedule]
  simp [State.withSchedule, State.withReply]

/-! ### The window at BASE -/

theorem offsetOfAddress_eq_some {a : Nat} {off : Offset} :
    offsetOfAddress a = some off ↔ a = systemAddress off := by
  have hoff := off.isLt
  simp only [offsetOfAddress, systemAddress, Option.ite_none_right_eq_some, Option.some.injEq,
    ← BitVec.toNat_inj, BitVec.toNat_ofNat]
  omega

/-- Settles O58: an offset is that of its system address and of no other. -/
theorem windowSitsAtBase : Obligations.WindowSitsAtBase :=
  ⟨fun _ => offsetOfAddress_eq_some.2 rfl, fun _ _ h => offsetOfAddress_eq_some.1 h⟩

end Sys2Proof.Machine
end

section
/-! PROOFS of the family 30_encoding: decoding and encoding of command words (30_encoding R70 to R74). -/

namespace Sys2Proof

/-! ### Decoding and encoding -/

/-- What Laws.Encoding says of each constructor, said of every instruction. -/
theorem encoding_statement (i : Instr) : Laws.Encoding.Statement i := by
  cases i with
  | nop => exact Laws.Encoding.nop
  | loadHex => exact Laws.Encoding.loadHex
  | loadRaw => exact Laws.Encoding.loadRaw
  | step => exact Laws.Encoding.step
  | genS => exact Laws.Encoding.genS
  | genT => exact Laws.Encoding.genT
  | verS => exact Laws.Encoding.verS
  | verT => exact Laws.Encoding.verT
  | b32Enc => exact Laws.Encoding.b32Enc

theorem Instr.wellFormed_eq_true (i : Instr) : i.wellFormed = true :=
  (encoding_statement i).1

theorem CommandFields.ofWord_encode (i : Instr) : CommandFields.ofWord (encode i) = i.fields := by
  obtain ⟨-, -, -, hfields⟩ := encoding_statement i
  exact hfields

theorem decodeFields_fields (i : Instr) : decodeFields i.fields = .ok i := by
  cases i <;> rfl

theorem decode_encode (i : Instr) : decode (encode i) = .ok i := by
  rw [decode, CommandFields.ofWord_encode, decodeFields_fields]

theorem decode_eq_ok_iff {v : Word} {i : Instr} : decode v = .ok i ↔ v = encode i := by
  constructor
  · exact fun h => (Machine.encode_of_decode h).symm
  · rintro rfl
    exact decode_encode i

/-- Settles O3: a command is decoded from its own fields, and a word is determined by its fields. -/
theorem decodeAndEncodeAgree : Obligations.DecodeAndEncodeAgree :=
  ⟨fun i => ⟨i.wellFormed_eq_true, decode_encode i⟩, fun _ _ h => Machine.encode_of_decode h⟩

/-- Settles O2: each of the nine words is the encoding of its command. -/
theorem exactlyNineWordsAreLegal : Obligations.ExactlyNineWordsAreLegal := fun _ =>
  ⟨decode_eq_ok_iff (i := .nop), decode_eq_ok_iff (i := .loadHex), decode_eq_ok_iff (i := .loadRaw),
    decode_eq_ok_iff (i := .step), decode_eq_ok_iff (i := .genS), decode_eq_ok_iff (i := .genT),
    decode_eq_ok_iff (i := .verS), decode_eq_ok_iff (i := .verT), decode_eq_ok_iff (i := .b32Enc)⟩

/-- Settles O1: each of the nine words is the encoding of its command. -/
theorem opcodeMapWordsDecode : Obligations.OpcodeMapWordsDecode :=
  ⟨decode_encode .nop, decode_encode .loadHex, decode_encode .loadRaw, decode_encode .step,
    decode_encode .genS, decode_encode .genT, decode_encode .verS, decode_encode .verT,
    decode_encode .b32Enc⟩

/-! ### Illegal words -/

/-- The decoder accepts exactly the well-formed fields (30_encoding R73, R74). -/
theorem isOk_decodeFields (f : CommandFields) : (decodeFields f).isOk = f.wellFormed := by
  obtain ⟨rsv, ts, op⟩ := f
  by_cases hr : rsv = 0
  · subst hr
    revert ts op
    decide
  · have hrsv : CommandFields.rsvOk ⟨rsv, ts, op⟩ = false := beq_false_of_ne hr
    rw [decodeFields_of_rsv hr, CommandFields.wellFormed, hrsv]
    rfl

theorem decodeFields_eq_error_iff (f : CommandFields) :
    (∃ e, decodeFields f = .error e) ↔ f.wellFormed = false := by
  rw [← isOk_decodeFields]
  cases decodeFields f with
  | ok i => exact iff_of_false nofun nofun
  | error e => exact iff_of_true ⟨e, rfl⟩ rfl

/-- The one-bit field TS is bit 4 of the word (30_encoding R70). -/
theorem CommandFields.ofWord_ts_eq_zero (v : Word) :
    (CommandFields.ofWord v).ts = 0 ↔ v.getLsbD 4 = false := by
  have hbit : (CommandFields.ofWord v).ts.getLsbD 0 = v.getLsbD 4 := by
    simp [CommandFields.ofWord]
  rw [← hbit]
  generalize (CommandFields.ofWord v).ts = ts
  revert ts
  decide

/-- The three conditions of 30_encoding R74 are the three checks on the word's fields. -/
theorem illegalBits_iff (v : Word) :
    Machine.IllegalBits v ↔ (CommandFields.ofWord v).wellFormed = false := by
  have hts := CommandFields.ofWord_ts_eq_zero v
  simp only [Machine.IllegalBits, CommandFields.wellFormed, CommandFields.rsvOk, CommandFields.opOk,
    CommandFields.tsOk, Bool.and_eq_false_iff, Bool.or_eq_false_iff, beq_eq_false_iff_ne,
    decide_eq_false_iff_not, ne_eq, not_le, hts, Bool.not_eq_false, or_assoc, and_assoc]
  rfl

/-- Settles O4: the decoder refuses a word exactly when its fields are not well formed. -/
theorem illegalWordsCharacterised : Obligations.IllegalWordsCharacterised := by
  intro v
  rw [illegalBits_iff]
  exact decodeFields_eq_error_iff (CommandFields.ofWord v)

end Sys2Proof

namespace Sys2Proof.Machine

/-- Settles O5: an illegal word decodes to no command, so its issue clears nothing, and its completion
has no writes. -/
theorem illegalWordCompletesWithErrIllegal : Obligations.IllegalWordCompletesWithErrIllegal := by
  refine ⟨fun s v rest hv hp hs => ?_, fun s k rest hp hs => ?_⟩
  · obtain ⟨e, he⟩ := (illegalWordsCharacterised v).2 hv
    have hidle : (s.withSchedule rest).pending = none := hp
    have hissue : hostStep (.write 0x008 v) (s.withSchedule rest) =
        { s with pending := some ⟨none, s.inputs⟩, done := false, schedule := rest } := by
      rw [hostStep, busWrite_cmd, issue_of_idle v hidle, he]
      rfl
    exact ⟨_, (step_of_host hs).trans (congrArg _ hissue), rfl, rfl, rfl, by simp [SameResults], rfl⟩
  · rw [step_of_engine hs, complete_of_illegal (s := s.withSchedule rest) hp]
    rfl

end Sys2Proof.Machine
end

section
/-! PROOFS of the family 30_encoding: what a command reads and what it writes (30_encoding R75). -/

namespace Sys2Proof.Machine

/-! ### The fields a command writes -/

/-- The result field of the write is one that the table of 30_encoding R75 lists for the command. -/
def FieldWrite.listedFor (i : Instr) : FieldWrite → Prop
  | .secret _ | .seedValid       => i = .loadHex ∨ i = .loadRaw
  | .matchFlag                   => i = .verS ∨ i = .verT
  | .code _ | .codeA _           => i = .genS ∨ i = .genT
  | .stepOut _                   => i = .step ∨ i = .genS ∨ i = .genT ∨ i = .verS ∨ i = .verT
  | .remain _                    => i = .step ∨ i = .genT ∨ i = .verT
  | .b32Out _ | .b32OutLen _     => i = .b32Enc

theorem genResult_listed {ts : Bool} {i : Instr} (hi : i = if ts then .genT else .genS) (cfg : Config)
    (k : Snapshot) : ∀ w ∈ (genResult ts cfg k).writes, w.listedFor i := by
  cases hv : k.seedValid with
  | false =>
    rw [genResult_of_unprovisioned ts cfg hv]
    cases ts <;> simp [FieldWrite.listedFor, hi]
  | true =>
    rw [genResult_of_provisioned ts cfg hv]
    cases ts <;> simp [FieldWrite.listedFor, hi]

theorem verResult_listed {ts : Bool} {i : Instr} (hi : i = if ts then .verT else .verS) (cfg : Config)
    (k : Snapshot) : ∀ w ∈ (verResult ts cfg k).writes, w.listedFor i := by
  by_cases hc : ValidCand k.candLen k.cand
  · cases hv : k.seedValid with
    | false => simp [verResult_of_unprovisioned ts cfg hc hv]
    | true =>
      rw [verResult_of_provisioned ts cfg hc hv]
      cases ts <;> split <;> simp [FieldWrite.listedFor, hi]
  · simp [verResult_of_malformed ts cfg hc]

/-- No command writes a field outside its row of the table (30_encoding R75). -/
theorem execute_listed (i : Instr) (cfg : Config) (k : Snapshot) :
    ∀ w ∈ (execute i cfg k).writes, w.listedFor i := by
  cases i with
  | nop => exact nofun
  | loadHex =>
    by_cases hv : ValidHex k.stage k.slen.toNat
    · simp [execute, loadHexResult_of_valid hv, commitWrites, FieldWrite.listedFor]
    · simp [execute, loadHexResult_of_invalid hv]
  | loadRaw =>
    by_cases hl : k.slen.toNat = 32
    · simp [execute, loadRawResult_of_length hl, commitWrites, FieldWrite.listedFor]
    · simp [execute, loadRawResult_of_bad_length hl]
  | step => simp [execute, stepResult, FieldWrite.listedFor]
  | genS => exact genResult_listed (ts := false) rfl cfg k
  | genT => exact genResult_listed (ts := true) rfl cfg k
  | verS => exact verResult_listed (ts := false) rfl cfg k
  | verT => exact verResult_listed (ts := true) rfl cfg k
  | b32Enc =>
    by_cases hl : 64 < k.slen.toNat
    · simp [execute, b32EncResult_of_long cfg hl, FieldWrite.listedFor]
    · simp [execute, b32EncResult_of_short cfg (not_lt.1 hl), FieldWrite.listedFor]

/-- A listed write stays within the command's row: it breaks only the clause that its row waives. -/
theorem WritesOnly.apply {i : Instr} {s t : State} (h : WritesOnly i s t) {w : FieldWrite}
    (hw : w.listedFor i) : WritesOnly i s (w.apply t) := by
  obtain ⟨hin, hcfg, hovr, hsched, hreplies, hslot, hcode, hstep, hremain, hb32, hmatch⟩ := h
  cases w with
  | secret | seedValid =>
    exact ⟨hin, hcfg, hovr, hsched, hreplies, fun h1 h2 => (hw.elim h1 h2).elim, hcode, hstep, hremain,
      hb32, hmatch⟩
  | code | codeA =>
    exact ⟨hin, hcfg, hovr, hsched, hreplies, hslot, fun h1 h2 => (hw.elim h1 h2).elim, hstep, hremain,
      hb32, hmatch⟩
  | stepOut =>
    refine ⟨hin, hcfg, hovr, hsched, hreplies, hslot, hcode, ?_, hremain, hb32, hmatch⟩
    rintro (rfl | rfl | rfl | rfl) <;> simp [FieldWrite.listedFor] at hw
  | remain =>
    exact ⟨hin, hcfg, hovr, hsched, hreplies, hslot, hcode, hstep,
      fun h1 h2 h3 => (hw.elim h1 fun h => h.elim h2 h3).elim, hb32, hmatch⟩
  | b32Out | b32OutLen =>
    exact ⟨hin, hcfg, hovr, hsched, hreplies, hslot, hcode, hstep, hremain, absurd hw, hmatch⟩
  | matchFlag =>
    exact ⟨hin, hcfg, hovr, hsched, hreplies, hslot, hcode, hstep, hremain, hb32,
      fun h1 h2 => (hw.elim h1 h2).elim⟩

theorem WritesOnly.applyWrites {i : Instr} {ws : List FieldWrite} (hws : ∀ w ∈ ws, w.listedFor i)
    {s t : State} (h : WritesOnly i s t) : WritesOnly i s (applyWrites ws t) := by
  induction ws generalizing t with
  | nil => exact h
  | cons w ws ih =>
    obtain ⟨hw, hws⟩ := List.forall_mem_cons.1 hws
    exact ih hws (h.apply hw)

theorem writesOnly_completed (i : Instr) (s : State) (e : ErrCode) : WritesOnly i s (s.completed e) := by
  simp [WritesOnly, SameInputs]

theorem writesOnly_finish_execute (i : Instr) (cfg : Config) (k : Snapshot) (s : State) :
    WritesOnly i s (finish (execute i cfg k) s) := by
  rw [finish_eq_applyWrites_completed]
  exact (writesOnly_completed i s _).applyWrites (execute_listed i cfg k)

/-! ### The operands a command reads -/

theorem rawSecret_congr {a b : Vector Byte 64} (h : ∀ i : Fin 32, b[i.val] = a[i.val]) :
    rawSecret b = rawSecret a :=
  congrArg Vector.ofFn (funext h)

theorem stagedBytes_congr {k l : Snapshot} (hn : l.slen = k.slen)
    (h : ∀ i : Fin 64, i.val < k.slen.toNat → l.stage[i] = k.stage[i]) :
    stagedBytes l = stagedBytes k := by
  apply List.ext_getElem
  · simp [stagedBytes, hn]
  · intro j hj _
    obtain ⟨hslen, hsize⟩ : j < k.slen.toNat ∧ j < 64 := by simpa [stagedBytes, hn] using hj
    simpa [stagedBytes] using h ⟨j, hsize⟩ hslen

theorem validCand_congr {l : BitVec 8} {p q : Vector Byte 8} (h : ∀ i : Fin 6, q[i.val] = p[i.val]) :
    ValidCand l q ↔ ValidCand l p := by
  simp only [ValidCand, h]

theorem candCode_congr {p q : Vector Byte 8} (h : ∀ i : Fin 6, q[i.val] = p[i.val]) :
    candCode q = candCode p :=
  congrArg Vector.ofFn (funext h)

/-- GEN reads the slot and its time source (30_encoding R75). -/
theorem genResult_congr {ts : Bool} {k l : Snapshot} (hv : l.seedValid = k.seedValid)
    (hs : l.secret = k.secret) (hc : counterOf ts l = counterOf ts k)
    (hr : remainWrites ts l = remainWrites ts k) (cfg : Config) :
    genResult ts cfg l = genResult ts cfg k := by
  simp only [genResult, hv, hs, hc, hr]

/-- VER reads the candidate, the slot, the window and its time source (30_encoding R75). -/
theorem verResult_congr {ts : Bool} {k l : Snapshot} (hl : l.candLen = k.candLen)
    (hq : ∀ i : Fin 6, l.cand[i.val] = k.cand[i.val]) (hv : l.seedValid = k.seedValid)
    (hs : l.secret = k.secret) (hw : l.window = k.window) (hc : counterOf ts l = counterOf ts k)
    (hr : remainWrites ts l = remainWrites ts k) (cfg : Config) :
    verResult ts cfg l = verResult ts cfg k := by
  simp only [verResult, hl, validCand_congr hq, candCode_congr hq, hv, hs, hw, hc, hr]

theorem SameOperands.execute_eq {i : Instr} {k l : Snapshot} (h : SameOperands i k l) (cfg : Config) :
    execute i cfg l = execute i cfg k := by
  cases i with
  | nop => rfl
  | loadHex =>
    obtain ⟨hn, hb⟩ := h
    simp only [execute, loadHexResult, hn, hb]
  | loadRaw =>
    obtain ⟨hn, hb⟩ := h
    simp only [execute, loadRawResult, hn, rawSecret_congr hb]
  | step =>
    have ht : l.timeIn = k.timeIn := h
    simp only [execute, stepResult, ht]
  | genS =>
    obtain ⟨hv, hs, hc⟩ := h
    exact genResult_congr (ts := false) hv hs hc rfl cfg
  | genT =>
    obtain ⟨hv, hs, ht⟩ := h
    exact genResult_congr (ts := true) hv hs (by simp [ht]) (by simp [ht]) cfg
  | verS =>
    obtain ⟨hl, hq, hv, hs, hw, hc⟩ := h
    exact verResult_congr (ts := false) hl hq hv hs hw hc rfl cfg
  | verT =>
    obtain ⟨hl, hq, hv, hs, hw, ht⟩ := h
    exact verResult_congr (ts := true) hl hq hv hs hw (by simp [ht]) (by simp [ht]) cfg
  | b32Enc =>
    obtain ⟨hn, hb⟩ := h
    simp only [execute, b32EncResult, hn, stagedBytes_congr hn hb]

/-- A meaning is `finish` of its result, for the operands of the pending command. -/
theorem exec_withPending (i : Instr) (s : State) (k : Snapshot) :
    exec i { s with pending := some ⟨some i, k⟩ } = .next (finish (execute i s.cfg k) s) := by
  rw [exec_eq_finish, operands_of_pending rfl, finish_withPending]

/-- Settles O31: a result writes only listed fields and is a function of the listed operands, and the
words of the loads are those that clear STAGE. -/
theorem commandsReadAndWriteTheirOperands : Obligations.CommandsReadAndWriteTheirOperands := by
  refine ⟨fun i s t h => ?_, fun i s k l h => ?_, fun s v hp hd => ?_⟩
  · obtain rfl := Host.Outcome.next.inj ((exec_eq_finish i s).symm.trans h)
    exact ⟨writesOnly_finish_execute i s.cfg s.operands s, finish_done _ s, finish_pending _ s⟩
  · rw [exec_withPending, exec_withPending, h.execute_eq]
  · have hclears : clearsStage (decode v).toOption = true := by
      obtain hd | hd := hd <;> rw [hd] <;> rfl
    rw [busWrite_cmd, issue_of_idle v hp]
    exact if_pos hclears

end Sys2Proof.Machine
end

section
/-! PROOFS of the family 30_encoding: the writes of a host sequence (30_encoding R78, R79). -/

namespace Sys2Proof.Machine

theorem step_of_wrTurn {s : State} {off : Offset} {v : Word} {rest : List Turn}
    (h : s.schedule = wrTurn off v :: rest) : step s = .next (busWrite off v (s.withSchedule rest)) :=
  step_of_host h

theorem withSequence_singleton (s : State) (p : HostStmt) : s.withSequence [p] = s.withSchedule p.turns := by
  rw [State.withSequence, sequenceTurns, List.flatMap_singleton]

/-! ### WR64 -/

theorem highWord_append_lowWord (c : Counter) : highWord c ++ lowWord c = c :=
  BitVec.eq_of_toNat_eq (by rw [counter_toNat, highWord_append, lowWord_append, ← counter_toNat])

/-- Both halves written, low one first, make the value. -/
theorem setHighWord_setLowWord (c v : Counter) : setHighWord (setLowWord c (lowWord v)) (highWord v) = v := by
  rw [setHighWord, lowWord_setLowWord, highWord_append_lowWord]

/-- The state with another value in a 64-bit input. -/
def State.withWide (s : State) : WideInput → Counter → State
  | .time, c => { s with timeIn := c }
  | .step, c => { s with stepIn := c }

theorem writeReg_wide (r : WideInput) (v : Counter) (s : State) :
    writeReg r.regs.2 (highWord v) (writeReg r.regs.1 (lowWord v) s) = s.withWide r v := by
  cases r with
  | time => exact congrArg (s.withWide .time) (setHighWord_setLowWord s.timeIn v)
  | step => exact congrArg (s.withWide .step) (setHighWord_setLowWord s.stepIn v)


theorem writeReg_wide_withSchedule (r : WideInput) (v : Word) (s : State) (ts : List Turn) :
    (writeReg r.regs.1 v s).withSchedule ts = writeReg r.regs.1 v (s.withSchedule ts) := by
  cases r <;> rfl

theorem State.withSchedule_withSchedule (s : State) (ts us : List Turn) :
    (s.withSchedule ts).withSchedule us = s.withSchedule us := rfl

theorem run_wr64 (r : WideInput) (v : Counter) {s : State} (hs : s.schedule = []) :
    core.run 2 (s.withSequence [.wr64 r v]) = .next (s.withWide r v) := by
  rw [withSequence_singleton, run_succ (step_of_wrTurn rfl), busWrite_offset,
    run_succ (step_of_wrTurn (writeReg_schedule _ _ _)), busWrite_offset, run_zero,
    writeReg_wide_withSchedule, writeReg_wide, State.withSchedule_withSchedule,
    State.withSchedule_withSchedule, State.withSchedule_of_eq hs]

/-! ### WRSTR and WRHEX -/

theorem wordByte_textWord (text : List Byte) (k : Nat) {j : Nat} (h : j < 4) :
    wordByte (textWord text k) j = text.getD (4 * k + j) 0 := by
  obtain ⟨h0, h1, h2, h3⟩ := wordByte_append (text.getD (4 * k + 3) 0) (text.getD (4 * k + 2) 0)
    (text.getD (4 * k + 1) 0) (text.getD (4 * k) 0)
  match j, h with
  | 0, _ => exact h0
  | 1, _ => exact h1
  | 2, _ => exact h2
  | 3, _ => exact h3

/-- The buffer after the words `ks` of a text are written into it, in that order. -/
def putText {n : Nat} (text : List Byte) (buf : Vector Byte n) (ks : List Nat) : Vector Byte n :=
  ks.foldl (fun b k => setBufWord b k (textWord text k)) buf

/-- A byte in a written word is the text's, or 0 beyond its end; every other byte is kept. -/
theorem putText_getElem {n : Nat} (text : List Byte) (buf : Vector Byte n) (ks : List Nat) (i : Fin n) :
    (putText text buf ks)[i] = if i.val / 4 ∈ ks then text.getD i.val 0 else buf[i] := by
  induction ks generalizing buf with
  | nil => rfl
  | cons k ks ih =>
    rw [putText, List.foldl_cons, ← putText, ih]
    by_cases hks : i.val / 4 ∈ ks
    · simp [hks]
    · by_cases hk : i.val / 4 = k
      · rw [if_neg hks, if_pos (hk ▸ List.mem_cons_self), setBufWord_of_same _ _ _ i hk,
          wordByte_textWord text k (Nat.mod_lt _ (by decide)), ← hk, Nat.div_add_mod]
      · rw [if_neg hks, if_neg (by simp [hk, hks]), setBufWord_of_other _ _ _ i hk]

/-- The number of bytes of a buffer (10_state R29, R31). -/
def TextBuffer.size : TextBuffer → Nat
  | .stage => 64
  | .cand  => 8

/-- What a buffer holds. -/
def State.buffer (s : State) : (b : TextBuffer) → Vector Byte b.size
  | .stage => s.stage
  | .cand  => s.cand

/-- The state with other bytes in a buffer. -/
def State.withBuffer (s : State) : (b : TextBuffer) → Vector Byte b.size → State
  | .stage, buf => { s with stage := buf }
  | .cand, buf  => { s with cand := buf }

theorem State.buffer_withSchedule (s : State) (b : TextBuffer) (ts : List Turn) :
    (s.withSchedule ts).buffer b = s.buffer b := by
  cases b <;> rfl

section

variable (s : State) (b : TextBuffer) (buf : Vector Byte b.size)

theorem State.withBuffer_schedule : (s.withBuffer b buf).schedule = s.schedule := by
  cases b <;> rfl

theorem State.withBuffer_withSchedule (ts : List Turn) :
    (s.withBuffer b buf).withSchedule ts = (s.withSchedule ts).withBuffer b buf := by
  cases b <;> rfl

theorem State.buffer_withBuffer : (s.withBuffer b buf).buffer b = buf := by
  cases b <;> rfl

theorem State.withBuffer_withBuffer (buf' : Vector Byte b.size) :
    (s.withBuffer b buf).withBuffer b buf' = s.withBuffer b buf' := by
  cases b <;> rfl

theorem State.withBuffer_buffer : s.withBuffer b (s.buffer b) = s := by
  cases b <;> rfl

end

/-- The write at word k of a buffer replaces that word (10_state R43, 20_memory R54). -/
theorem busWrite_buffer (b : TextBuffer) {k : Nat} (hk : 4 * k < b.size) (v : Word) (s : State) :
    busWrite (b.base + BitVec.ofNat 12 (4 * k)) v s = s.withBuffer b (setBufWord (s.buffer b) k v) := by
  cases b with
  | stage =>
    have hk : k < 16 := by simp only [TextBuffer.size] at hk; omega
    have hoff : TextBuffer.stage.base + BitVec.ofNat 12 (4 * k) = (Reg.stage ⟨k, hk⟩).offset :=
      (BitVec.ofNat_add 0x080 (4 * k)).symm
    rw [hoff, busWrite_offset]
    rfl
  | cand =>
    obtain rfl | rfl : k = 0 ∨ k = 1 := by simp only [TextBuffer.size] at hk; omega
    · exact busWrite_offset .candLo v s
    · exact busWrite_offset .candHi v s

/-- The turns that write words of a text into a buffer run to the buffer with those words. -/
theorem run_textWords (b : TextBuffer) (text : List Byte) {ks : List Nat} (hks : ∀ k ∈ ks, 4 * k < b.size)
    {s : State}
    (hs : s.schedule = ks.map fun k => wrTurn (b.base + BitVec.ofNat 12 (4 * k)) (textWord text k)) :
    core.run ks.length s = .next ((s.withSchedule []).withBuffer b (putText text (s.buffer b) ks)) := by
  induction ks generalizing s with
  | nil =>
    have hs' : s.withSchedule [] = s := State.withSchedule_of_eq hs
    rw [hs', putText, List.foldl_nil, State.withBuffer_buffer]
    exact run_zero s
  | cons k ks ih =>
    obtain ⟨hk, hks⟩ := List.forall_mem_cons.1 hks
    rw [List.length_cons, run_succ (step_of_wrTurn hs), busWrite_buffer b hk,
      ih hks (State.withBuffer_schedule _ b _), State.withBuffer_withSchedule,
      State.withBuffer_withBuffer, State.buffer_withBuffer, State.buffer_withSchedule,
      State.withSchedule_withSchedule]
    rfl

/-- A text no longer than the buffer lands in it from byte 0 on. -/
theorem run_textTurns (b : TextBuffer) {text : List Byte} (hlen : text.length ≤ b.size) {s : State}
    (hs : s.schedule = []) :
    core.run ((text.length + 3) / 4) (s.withSchedule (textTurns b text)) =
      .next (s.withBuffer b (putText text (s.buffer b) (List.range ((text.length + 3) / 4)))) := by
  have hrange : ∀ k ∈ List.range ((text.length + 3) / 4), 4 * k < b.size := by
    intro k hk
    have := List.mem_range.1 hk
    omega
  have hrun := run_textWords b text hrange (s := s.withSchedule (textTurns b text)) rfl
  rwa [List.length_range, State.buffer_withSchedule, State.withSchedule_withSchedule,
    State.withSchedule_of_eq hs] at hrun

theorem putText_range_getElem {n : Nat} (text : List Byte) (buf : Vector Byte n) (i : Fin n) :
    (putText text buf (List.range ((text.length + 3) / 4)))[i] =
      if h : i.val < text.length then text[i.val]
      else if i.val / 4 < (text.length + 3) / 4 then 0 else buf[i] := by
  rw [putText_getElem]
  simp only [List.mem_range]
  by_cases h : i.val < text.length
  · rw [dif_pos h, if_pos (by omega), List.getD_eq_getElem _ _ h]
  · rw [dif_neg h, List.getD_eq_default _ _ (not_lt.1 h)]

/-- Settles O57: WR64 is two writes to a counter's halves, and the others write the words of a text. -/
theorem hostSequenceWritesLand : Obligations.HostSequenceWritesLand := by
  refine ⟨fun s v hs => ⟨run_wr64 .time v hs, run_wr64 .step v hs⟩, fun s text hs hlen => ?_,
    fun s text hs hlen => ?_⟩
  · refine ⟨_, ?_, ?_, putText_range_getElem text s.stage⟩
    all_goals
      rw [withSequence_singleton]
      exact run_textTurns .stage hlen hs
  · refine ⟨_, ?_, putText_range_getElem text s.cand⟩
    rw [withSequence_singleton]
    exact run_textTurns .cand hlen hs

end Sys2Proof.Machine
end

section
/-! PROOFS of the family 41_base32: the Base32 encoder and the B32ENC command (41_base32 R100 to R104). -/

namespace Sys2Proof.Machine

/-! ### Five-bit groups of a bit sequence -/

/-- Group j of a bit sequence as a number, its first bit the most significant (41_base32 R100). -/
def groupValue (bit : Nat → Nat) (j : Nat) : Nat :=
  bit (5 * j) * 16 + bit (5 * j + 1) * 8 + bit (5 * j + 2) * 4 + bit (5 * j + 3) * 2 + bit (5 * j + 4)

theorem b32Char_eq_alphabet (s : List Byte) (j : Nat) :
    b32Char s j = alphabet (groupValue (b32Bit s) j) := rfl

theorem groupValue_add (bit : Nat → Nat) (q j : Nat) :
    groupValue bit (q + j) = groupValue (fun k => bit (5 * q + k)) j := by
  simp only [groupValue, Nat.mul_add, Nat.add_assoc]

/-- A group is below 32, and each of its bits can be read off it. -/
theorem groupValue_bits {bit : Nat → Nat} (h : ∀ k, bit k < 2) (j : Nat) :
    groupValue bit j < 32 ∧ ∀ q < 5, bit (5 * j + q) = groupValue bit j / 2 ^ (4 - q) % 2 := by
  have h0 := h (5 * j)
  have h1 := h (5 * j + 1)
  have h2 := h (5 * j + 2)
  have h3 := h (5 * j + 3)
  have h4 := h (5 * j + 4)
  refine ⟨by rw [groupValue]; omega, fun q hq => ?_⟩
  interval_cases q
  all_goals
    simp only [groupValue, Nat.add_zero]
    omega

/-- A bit of a byte string is the bit of its byte. -/
theorem b32Bit_of_lt {s : List Byte} {k : Nat} (h : k < 8 * s.length) :
    b32Bit s k = ((s.getD (k / 8) 0).toNat.testBit (7 - k % 8)).toNat := by
  rw [b32Bit, if_pos h, Nat.toNat_testBit]

theorem b32Bit_lt_two (s : List Byte) (k : Nat) : b32Bit s k < 2 := by
  rw [b32Bit]
  split
  · exact Nat.mod_lt _ (by decide)
  · decide

/-- The bits of a byte string are its first byte's, then the other bytes'. -/
theorem b32Bit_cons (c : Byte) (s : List Byte) (k : Nat) :
    b32Bit (c :: s) k = if k < 8 then (c.toNat.testBit (7 - k)).toNat else b32Bit s (k - 8) := by
  split
  · next h =>
    have hbyte : k / 8 = 0 := by omega
    rw [b32Bit_of_lt (by rw [List.length_cons]; omega), hbyte, Nat.mod_eq_of_lt h, List.getD_cons_zero]
  · next h =>
    obtain ⟨m, rfl⟩ : ∃ m, k = m + 8 := ⟨k - 8, by omega⟩
    have hlen : m + 8 < 8 * (c :: s).length ↔ m < 8 * s.length := by rw [List.length_cons]; omega
    have hbyte : (m + 8) / 8 = m / 8 + 1 := by omega
    simp only [b32Bit, hlen, hbyte, Nat.add_mod_right, List.getD_cons_succ, Nat.add_sub_cancel]

/-! ### The rolling buffer -/

/-- Bit k of what the encoder has yet to emit: the `n` bits of its buffer, then the bytes still to come. -/
def unreadBit (buf n : Nat) (s : List Byte) (k : Nat) : Nat :=
  if k < n then (buf.testBit (n - 1 - k)).toNat else b32Bit s (k - n)

theorem unreadBit_of_lt {buf n : Nat} (s : List Byte) {k : Nat} (h : k < n) :
    unreadBit buf n s k = buf / 2 ^ (n - 1 - k) % 2 := by
  rw [unreadBit, if_pos h, Nat.toNat_testBit]

theorem unreadBit_empty (s : List Byte) : unreadBit 0 0 s = b32Bit s := rfl

/-- Packing a byte into the buffer keeps the bits that are to be emitted. -/
theorem unreadBit_pack (buf n : Nat) (c : Byte) (s : List Byte) :
    unreadBit buf n (c :: s) = unreadBit (buf * 256 + c.toNat) (n + 8) s := by
  funext k
  have hbit := Nat.testBit_two_pow_mul_add buf c.isLt (n + 8 - 1 - k)
  rw [Nat.mul_comm] at hbit
  simp only [unreadBit, b32Bit_cons]
  by_cases hbuf : k < n
  · have hi : n + 8 - 1 - k - 8 = n - 1 - k := by omega
    rw [if_pos hbuf, if_pos (by omega), hbit, if_neg (by omega), hi]
  · by_cases hbyte : k < n + 8
    · have hi : n + 8 - 1 - k = 7 - (k - n) := by omega
      rw [if_neg hbuf, if_pos (by omega), if_pos hbyte, hbit, if_pos (by omega), hi]
    · rw [if_neg hbuf, if_neg (by omega), if_neg hbyte, Nat.sub_sub]

/-- Dropping the first `m` bits of the buffer drops `m` of the bits that are to be emitted. -/
theorem unreadBit_drop {m n : Nat} (h : m ≤ n) (buf : Nat) (s : List Byte) (k : Nat) :
    unreadBit buf n s (m + k) = unreadBit (buf % 2 ^ (n - m)) (n - m) s k := by
  by_cases hk : k < n - m
  · have hi : n - 1 - (m + k) = n - m - 1 - k := by omega
    have hlow : n - m - 1 - k < n - m := by omega
    rw [unreadBit, unreadBit, if_pos (by omega), if_pos hk, hi, Nat.testBit_mod_two_pow,
      decide_eq_true hlow, Bool.true_and]
  · have hi : m + k - n = k - (n - m) := by omega
    rw [unreadBit, unreadBit, if_neg (by omega), if_neg hk, hi]

/-- Shifting zeros into the buffer after the last byte does not change what is to be emitted. -/
theorem unreadBit_fill (buf n m : Nat) : unreadBit buf n [] = unreadBit (buf <<< m) (n + m) [] := by
  funext k
  have hnil : ∀ i, b32Bit [] i = 0 := fun _ => rfl
  simp only [unreadBit, hnil, Nat.testBit_shiftLeft]
  by_cases hk : k < n
  · have hi : n + m - 1 - k - m = n - 1 - k := by omega
    have hge : m ≤ n + m - 1 - k := by omega
    rw [if_pos hk, if_pos (by omega), hi, decide_eq_true hge, Bool.true_and]
  · by_cases hfill : k < n + m
    · have hlt : ¬ m ≤ n + m - 1 - k := by omega
      rw [if_neg hk, if_pos hfill, decide_eq_false hlt, Bool.false_and, Bool.toNat_false]
    · rw [if_neg hk, if_neg hfill]

/-- A group within the buffer is the number that the inner loop emits. -/
theorem groupValue_unreadBit_of_le {buf n j : Nat} (s : List Byte) (h : 5 * (j + 1) ≤ n) :
    groupValue (unreadBit buf n s) j = buf / 2 ^ (n - 5 * (j + 1)) % 32 := by
  obtain ⟨e, rfl⟩ : ∃ e, n = 5 * (j + 1) + e := ⟨n - 5 * (j + 1), by omega⟩
  have hbit : ∀ q i, i + q = 4 →
      unreadBit buf (5 * (j + 1) + e) s (5 * j + q) = buf / 2 ^ e / 2 ^ i % 2 := by
    intro q i hi
    have hexp : 5 * (j + 1) + e - 1 - (5 * j + q) = e + i := by omega
    rw [unreadBit_of_lt s (by omega), hexp, pow_add, Nat.div_div_eq_div_mul]
  have h0 : unreadBit buf (5 * (j + 1) + e) s (5 * j) = buf / 2 ^ e / 2 ^ 4 % 2 := hbit 0 4 rfl
  rw [groupValue, h0, hbit 1 3 rfl, hbit 2 2 rfl, hbit 3 1 rfl, hbit 4 0 rfl, Nat.add_sub_cancel_left]
  omega

/-- The last, partial group is filled with zeros. -/
theorem b32Final_eq_map {buf n : Nat} (hn : n < 5) :
    b32Final buf n =
      (List.range ((n + 4) / 5)).map fun j => alphabet (groupValue (unreadBit buf n []) j) := by
  by_cases h0 : n = 0
  · subst h0
    rfl
  · have hone : (n + 4) / 5 = 1 := by omega
    have hfive : n + (5 - n) = 5 := by omega
    have hgroup := groupValue_unreadBit_of_le (buf := buf <<< (5 - n)) (n := 5) (j := 0) [] (by decide)
    rw [b32Final, if_pos (by omega), hone, List.range_one, List.map_singleton, and_thirty_one,
      unreadBit_fill buf n (5 - n), hfive, hgroup, Nat.sub_self, pow_zero, Nat.div_one]

/-- The outer loop emits the groups of its buffer and the bytes still to come. -/
theorem b32Loop_eq_map {s : List Byte} {buf n : Nat} (hn : n < 5) (hb : buf < 2 ^ n) :
    b32Loop s buf n =
      (List.range ((n + 8 * s.length + 4) / 5)).map fun j => alphabet (groupValue (unreadBit buf n s) j) := by
  induction s generalizing buf n with
  | nil => exact b32Final_eq_map hn
  | cons c s ih =>
    have hc := c.isLt
    have hbuf : buf * 256 + c.toNat < 2 ^ (n + 8) := by rw [pow_add]; omega
    have hrest : n + 8 - 5 * ((n + 8) / 5) = (n + 8) % 5 := by omega
    have hcount : (n + 8 * (c :: s).length + 4) / 5 =
        (n + 8) / 5 + ((n + 8) % 5 + 8 * s.length + 4) / 5 := by
      rw [List.length_cons]
      omega
    rw [b32Loop, b32Drain_eq hbuf, ih (Nat.mod_lt _ (by decide)) (Nat.mod_lt _ (by positivity)),
      unreadBit_pack, hcount, List.range_add, List.map_append, List.map_map]
    refine congrArg₂ (· ++ ·) ?_ ?_
    · refine List.map_congr_left fun j hj => congrArg alphabet (groupValue_unreadBit_of_le s ?_).symm
      have := List.mem_range.1 hj
      omega
    · refine List.map_congr_left fun j _ => ?_
      rw [Function.comp_apply, groupValue_add]
      simp only [unreadBit_drop (show 5 * ((n + 8) / 5) ≤ n + 8 by omega), hrest]

/-- Settles O44: the loop starts with an empty buffer, so what it has yet to emit is the whole string. -/
theorem b32RollingBufferIsClosedForm : Obligations.B32RollingBufferIsClosedForm := by
  intro s
  rw [b32Loop_eq_map (by decide) (by decide), unreadBit_empty, Nat.zero_add, b32ClosedForm]
  exact List.map_congr_left fun j _ => (b32Char_eq_alphabet s j).symm

/-! ### Padding and lengths -/

/-- Settles O45: the padding is what the length lacks modulo 8. -/
theorem b32PaddingIsTheFewestToEight : Obligations.B32PaddingIsTheFewestToEight := by
  refine fun out => ⟨rfl, _, rfl, ?_, fun m hm => ?_⟩
  all_goals omega

theorem b32_noPad_length (s : List Byte) : (b32 s .noPad).length = (8 * s.length + 4) / 5 := by
  have h : (b32Loop s 0 0).length = (0 + 8 * s.length + 4) / 5 := b32Loop_length (by decide) (by decide)
  rwa [Nat.zero_add] at h

/-- Settles O46: the text has a character per five bits, and its padded length is the next multiple of 8. -/
theorem b32OutputLengths : Obligations.B32OutputLengths := by
  refine fun s => ⟨b32_noPad_length s, ?_⟩
  obtain ⟨-, n, hpad, hmod, hleast⟩ := b32PaddingIsTheFewestToEight (b32 s .noPad)
  have hb : b32 s .pad = b32 s .noPad ++ List.replicate n 0x3D := hpad
  rw [hb, List.length_append, List.length_replicate]
  rw [b32_noPad_length] at hmod hleast ⊢
  have h8 := hleast (8 * ((s.length + 4) / 5) - (8 * s.length + 4) / 5) (by omega)
  omega

/-! ### The text determines the bytes -/

/-- A group below 32 is determined by its symbol. -/
theorem alphabet_inj {a b : Nat} (ha : a < 32) (hb : b < 32) (h : alphabet a = alphabet b) : a = b :=
  Fin.mk.inj (alphabet_injective ⟨a, ha⟩ ⟨b, hb⟩ h)

/-- A symbol is one of A to Z or 2 to 7. -/
theorem alphabet_range {a : Nat} (h : a < 32) :
    (0x41 ≤ (alphabet a).toNat ∧ (alphabet a).toNat ≤ 0x5A)
      ∨ (0x32 ≤ (alphabet a).toNat ∧ (alphabet a).toNat ≤ 0x37) := by
  rw [alphabet]
  split
  all_goals
    rw [BitVec.toNat_ofNat]
    omega

/-- Byte strings of one length with the same bits are equal. -/
theorem eq_of_b32Bit_eq {s t : List Byte} (hlen : s.length = t.length)
    (h : ∀ k < 8 * s.length, b32Bit s k = b32Bit t k) : s = t := by
  refine List.ext_getElem hlen fun i hs ht => BitVec.eq_of_getLsbD_eq fun b hb => ?_
  have hk : 8 * i + (7 - b) < 8 * s.length := by omega
  have hbyte : (8 * i + (7 - b)) / 8 = i := by omega
  have hpos : 7 - (8 * i + (7 - b)) % 8 = b := by omega
  have hbit := h _ hk
  rw [b32Bit_of_lt hk, b32Bit_of_lt (hlen ▸ hk), hbyte, hpos, List.getD_eq_getElem _ _ hs,
    List.getD_eq_getElem _ _ ht] at hbit
  rw [BitVec.getLsbD, BitVec.getLsbD, Bool.eq_iff_iff, ← Bool.toNat_eq_one, hbit, Bool.toNat_eq_one]

theorem b32ClosedForm_injective {s t : List Byte} (hlen : s.length = t.length)
    (h : b32ClosedForm s = b32ClosedForm t) : s = t := by
  refine eq_of_b32Bit_eq hlen fun k hk => ?_
  rw [b32ClosedForm, b32ClosedForm, hlen, List.map_inj_left] at h
  obtain ⟨hs, hsbit⟩ := groupValue_bits (b32Bit_lt_two s) (k / 5)
  obtain ⟨ht, htbit⟩ := groupValue_bits (b32Bit_lt_two t) (k / 5)
  have hchar := h (k / 5) (List.mem_range.2 (by omega))
  rw [b32Char_eq_alphabet, b32Char_eq_alphabet] at hchar
  have hgroup := alphabet_inj hs ht hchar
  have hq : k % 5 < 5 := Nat.mod_lt k (by decide)
  rw [← Nat.div_add_mod k 5, hsbit _ hq, htbit _ hq, hgroup]

theorem mem_b32ClosedForm_range {s : List Byte} {ch : Byte} (h : ch ∈ b32ClosedForm s) :
    (0x41 ≤ ch.toNat ∧ ch.toNat ≤ 0x5A) ∨ (0x32 ≤ ch.toNat ∧ ch.toNat ≤ 0x37) := by
  obtain ⟨j, -, rfl⟩ := List.mem_map.1 h
  obtain ⟨hlt, -⟩ := groupValue_bits (b32Bit_lt_two s) j
  rw [b32Char_eq_alphabet]
  exact alphabet_range hlt

theorem b32_noPad_eq_closedForm (s : List Byte) : b32 s .noPad = b32ClosedForm s :=
  b32RollingBufferIsClosedForm s

theorem b32ClosedForm_length (s : List Byte) : (b32ClosedForm s).length = (8 * s.length + 4) / 5 := by
  rw [b32ClosedForm, List.length_map, List.length_range]

/-- A text is the closed form and, under PAD only, copies of '=' (41_base32 R101). -/
theorem exists_b32_eq_closedForm_append (p : B32Pad) (s : List Byte) :
    ∃ n, b32 s p = b32ClosedForm s ++ List.replicate n 0x3D ∧ (p = .noPad → n = 0) := by
  rw [← b32_noPad_eq_closedForm]
  cases p with
  | noPad => exact ⟨0, (List.append_nil _).symm, fun _ => rfl⟩
  | pad => exact ⟨_, rfl, nofun⟩

/-- Settles O47: the closed form is at the front of the text, with its length fixed by that of the input. -/
theorem b32IsInjectiveOverItsAlphabet : Obligations.B32IsInjectiveOverItsAlphabet := by
  intro p s t
  obtain ⟨n, hs, hn⟩ := exists_b32_eq_closedForm_append p s
  obtain ⟨m, ht, -⟩ := exists_b32_eq_closedForm_append p t
  refine ⟨fun hlen h => ?_, fun ch hch => ?_⟩
  · rw [hs, ht] at h
    exact b32ClosedForm_injective hlen
      (List.append_inj_left h (by rw [b32ClosedForm_length, b32ClosedForm_length, hlen]))
  · rw [hs, List.mem_append, List.mem_replicate] at hch
    obtain hch | ⟨hpos, hch⟩ := hch
    · exact (mem_b32ClosedForm_range hch).imp_right .inl
    · cases p with
      | noPad => exact absurd (hn rfl) hpos
      | pad => exact .inr (.inr ⟨rfl, hch⟩)

/-! ### The B32ENC command -/

/-- B32_OUT_LEN holds the length of any text that fits B32_OUT. -/
theorem b32OutLen_toNat {text : List Byte} (h : text.length ≤ 104) :
    (BitVec.ofNat 7 text.length).toNat = text.length :=
  (BitVec.toNat_ofNat _ 7).trans (Nat.mod_eq_of_lt (by omega))

theorem b32Buffer_getElem (text : List Byte) (i : Fin 104) :
    (b32Buffer text)[i] = if h : i.val < text.length then text[i.val] else 0 := by
  split
  · next h => simp [b32Buffer, h]
  · next h => exact b32Buffer_rest text i (not_lt.1 h)

/-- The pending B32ENC completes with its result in the block's build. -/
theorem exec_b32Enc {s : State} {k : Snapshot} (h : s.pending = some ⟨some .b32Enc, k⟩) :
    exec .b32Enc s =
      .next (applyWrites (b32EncResult s.cfg k).writes (s.completed (b32EncResult s.cfg k).err)) := by
  rw [exec_eq_finish, operands_of_pending h, finish_eq_applyWrites_completed]
  rfl

/-- Settles O29: the result by SLEN, whose text fits the buffer. -/
theorem b32EncEncodesTheStagedBytes : Obligations.B32EncEncodesTheStagedBytes := by
  refine fun s k hp => ⟨fun hlong => ?_, fun hshort => ?_⟩
  · rw [exec_b32Enc hp, b32EncResult_of_long s.cfg hlong]
    rfl
  · have hlen := b32_stagedBytes_length_le k s.cfg.b32Pad
    refine ⟨b32 (stagedBytes k) s.cfg.b32Pad, b32Buffer _, _, rfl, hlen, b32OutLen_toNat hlen,
      b32Buffer_getElem _, ?_⟩
    rw [exec_b32Enc hp, b32EncResult_of_short s.cfg hshort]
    rfl

end Sys2Proof.Machine
end

section
/-! PROOFS of the family 42_seed: the hex form of the secret and the commands LOADHEX and LOADRAW
(42_seed R111 to R117). -/

namespace Sys2Proof.Machine

/-! ### Hex digits -/

/-- The two ranges of digits (42_seed R111). -/
theorem hexVal_eq_some_iff (ch n : Byte) :
    hexVal ch = some n ↔
      (0x30 ≤ ch.toNat ∧ ch.toNat ≤ 0x39 ∧ n.toNat = ch.toNat - 0x30)
        ∨ (0x61 ≤ ch.toNat ∧ ch.toNat ≤ 0x66 ∧ n.toNat = ch.toNat - 0x61 + 10) := by
  unfold hexVal
  split
  · next hdigit =>
    rw [Option.some.injEq, ← BitVec.toNat_inj]
    bv_omega
  · next hnotDigit =>
    split
    · next hletter =>
      rw [Option.some.injEq, ← BitVec.toNat_inj]
      bv_omega
    · next hnotLetter =>
      simp only [reduceCtorEq, false_iff]
      omega

theorem isHex_eq_true_iff (ch : Byte) : isHex ch = true ↔ ∃ n, hexVal ch = some n :=
  Option.isSome_iff_exists

/-- Settles O24: the two ranges of `hexVal_eq_some_iff`, and `isHex` says that a value exists. -/
theorem hexDigitsAndTheirValues : Obligations.HexDigitsAndTheirValues :=
  fun ch => ⟨hexVal_eq_some_iff ch, isHex_eq_true_iff ch⟩

/-- A hex digit is worth a nibble. -/
theorem hexVal_lt {ch n : Byte} (h : hexVal ch = some n) : n.toNat < 16 := by
  obtain ⟨_, _, hn⟩ | ⟨_, _, hn⟩ := (hexVal_eq_some_iff ch n).1 h <;> omega

/-- Each of the sixteen nibbles is the value of its character. -/
theorem hexVal_hexChar : ∀ n < 16, hexVal (hexChar n) = some (BitVec.ofNat 8 n) := by decide

theorem isHex_hexChar {n : Nat} (h : n < 16) : isHex (hexChar n) = true :=
  (isHex_eq_true_iff _).2 ⟨_, hexVal_hexChar n h⟩

/-! ### Hex text -/

/-- A decoded byte is its pair of digits, the high nibble first; 8 bits hold it (42_seed R112). -/
theorem hexDecode_getElem_toNat {h : Vector Byte 64} (valid : ∀ i : Fin 64, isHex h[i] = true)
    (i : Fin 32) {hi lo : Byte} (hhi : hexVal h[2 * i.val] = some hi)
    (hlo : hexVal h[2 * i.val + 1] = some lo) :
    (hexDecode h valid)[i].toNat = 16 * hi.toNat + lo.toNat := by
  have hhi_lt := hexVal_lt hhi
  have hlo_lt := hexVal_lt hlo
  simp only [hexDecode, Fin.getElem_fin, Vector.getElem_ofFn, hhi, hlo, Option.get_some]
  bv_omega

theorem hexText_high (key : Vector Byte 32) (i : Fin 32) :
    (hexText key)[2 * i.val] = hexChar (key[i].toNat / 16) := by
  simp [hexText]

theorem hexText_low (key : Vector Byte 32) (i : Fin 32) :
    (hexText key)[2 * i.val + 1] = hexChar (key[i].toNat % 16) := by
  have hhalf : (2 * i.val + 1) / 2 = i.val := by omega
  simp [hexText, hhalf]

theorem isHex_hexText (key : Vector Byte 32) (i : Fin 64) : isHex (hexText key)[i] = true := by
  simp only [hexText, Fin.getElem_fin, Vector.getElem_ofFn]
  split
  · exact isHex_hexChar (by omega)
  · exact isHex_hexChar (by omega)

/-- Decoding the hex text of a key gives the key (42_seed R117). -/
theorem hexDecode_hexText (key : Vector Byte 32) :
    hexDecode (hexText key) (isHex_hexText key) = key := by
  refine Vector.ext fun j hj => BitVec.eq_of_toNat_eq ?_
  have hhi := hexVal_hexChar (key[j].toNat / 16) (by omega)
  have hlo := hexVal_hexChar (key[j].toNat % 16) (by omega)
  calc (hexDecode (hexText key) (isHex_hexText key))[j].toNat
      = 16 * (BitVec.ofNat 8 (key[j].toNat / 16)).toNat + (BitVec.ofNat 8 (key[j].toNat % 16)).toNat :=
        hexDecode_getElem_toNat (isHex_hexText key) ⟨j, hj⟩
          ((congrArg hexVal (hexText_high key ⟨j, hj⟩)).trans hhi)
          ((congrArg hexVal (hexText_low key ⟨j, hj⟩)).trans hlo)
    _ = key[j].toNat := by simp only [BitVec.toNat_ofNat]; omega

/-! ### The commands -/

/-- A pending command completes with the writes of its result. -/
theorem exec_of_execute {s : State} {i : Instr} {k : Snapshot} {r : Result}
    (hp : s.pending = some ⟨some i, k⟩) (hr : execute i s.cfg k = r) :
    exec i s = .next (applyWrites r.writes (s.completed r.err)) := by
  rw [exec_eq_finish, operands_of_pending hp, hr, finish_eq_applyWrites_completed]

/-- LOADHEX of a valid text commits the bytes it spells (42_seed R115). -/
theorem exec_loadHex_of_valid {s : State} {k : Snapshot} (hp : s.pending = some ⟨some .loadHex, k⟩)
    (hv : ValidHex k.stage k.slen.toNat) {key : Vector Byte 32} (hkey : hexDecode k.stage hv.2 = key) :
    exec .loadHex s = .next { s.completed .none with secret := key, seedValid := true } :=
  hkey ▸ exec_of_execute hp (loadHexResult_of_valid hv)

/-- LOADRAW of 32 bytes commits them (42_seed R116). -/
theorem exec_loadRaw_of_length {s : State} {k : Snapshot} (hp : s.pending = some ⟨some .loadRaw, k⟩)
    (hl : k.slen.toNat = 32) {key : Vector Byte 32} (hkey : rawSecret k.stage = key) :
    exec .loadRaw s = .next { s.completed .none with secret := key, seedValid := true } :=
  hkey ▸ exec_of_execute hp (loadRawResult_of_length hl)

theorem rawSecret_getElem (stage : Vector Byte 64) (i : Fin 32) :
    (rawSecret stage)[i] = stage[i.val] := by
  simp [rawSecret]

/-- Settles O23: a valid text is decoded digit pair by digit pair; an invalid one has no writes. -/
theorem loadHexValidatesAndCommits : Obligations.LoadHexValidatesAndCommits := by
  refine fun s k hp => ⟨fun hlen hhex => ?_, fun hbad => ?_⟩
  · have hv : ValidHex k.stage k.slen.toNat := ⟨congrArg BitVec.toNat hlen, hhex⟩
    refine ⟨hexDecode k.stage hhex, fun i => ?_, exec_loadHex_of_valid hp hv rfl⟩
    obtain ⟨hi, hhi⟩ := (isHex_eq_true_iff _).1 (hhex ⟨2 * i.val, by omega⟩)
    obtain ⟨lo, hlo⟩ := (isHex_eq_true_iff _).1 (hhex ⟨2 * i.val + 1, by omega⟩)
    exact ⟨hi, lo, hhi, hlo, hexDecode_getElem_toNat hhex i hhi hlo⟩
  · have hv : ¬ ValidHex k.stage k.slen.toNat := by
      rintro ⟨hlen, hhex⟩
      obtain hne | ⟨i, hi⟩ := hbad
      · exact hne (BitVec.eq_of_toNat_eq hlen)
      · exact Bool.false_ne_true (hi.symm.trans (hhex i))
    exact exec_of_execute hp (loadHexResult_of_invalid hv)

/-- Settles O26: any 32 staged bytes are committed; another length has no writes. -/
theorem loadRawCommitsThirtyTwoBytes : Obligations.LoadRawCommitsThirtyTwoBytes := by
  refine fun s k hp => ⟨fun hlen => ?_, fun hlen => ?_⟩
  · exact ⟨rawSecret k.stage, rawSecret_getElem k.stage,
      exec_loadRaw_of_length hp (congrArg BitVec.toNat hlen) rfl⟩
  · have hl : k.slen.toNat ≠ 32 := fun h => hlen (BitVec.eq_of_toNat_eq h)
    exact exec_of_execute hp (loadRawResult_of_bad_length hl)

/-- Settles O25: the committed bytes are the key, the decoded hex text by `hexDecode_hexText`. -/
theorem hexTextRoundTrip : Obligations.HexTextRoundTrip := by
  intro s key k l hklen hktext hllen hlbytes
  constructor
  · have hhex : ∀ i : Fin 64, isHex k.stage[i] = true := hktext ▸ isHex_hexText key
    have hkey : hexDecode k.stage hhex = key := by simp only [hktext, hexDecode_hexText]
    exact exec_loadHex_of_valid (s := { s with pending := some ⟨some .loadHex, k⟩ }) rfl
      ⟨congrArg BitVec.toNat hklen, hhex⟩ hkey
  · have hkey : rawSecret l.stage = key :=
      Vector.ext fun j hj => (rawSecret_getElem l.stage ⟨j, hj⟩).trans (hlbytes ⟨j, hj⟩)
    exact exec_loadRaw_of_length (s := { s with pending := some ⟨some .loadRaw, l⟩ }) rfl
      (congrArg BitVec.toNat hllen) hkey

end Sys2Proof.Machine
end

section
/-! PROOFS of the family 43_sha1_hmac: SHA-1 padding, message schedule and round functions, the block key
of HMAC and dynamic truncation (43_sha1_hmac R131 to R133, R138, R141, R142). -/

namespace Sys2Proof.Machine

/-! ### Padding -/

theorem padZeros_fills_block (len : Nat) : (len + 1 + padZeros len + 8) % 64 = 0 := by
  unfold padZeros
  omega

theorem padZeros_le {len y : Nat} (h : (len + 1 + y + 8) % 64 = 0) : padZeros len ≤ y := by
  unfold padZeros
  omega

theorem sha1Pad_length (m : List Byte) :
    (sha1Pad m).length = m.length + 1 + padZeros m.length + 8 := by
  simp only [sha1Pad, List.length_append, List.length_replicate, List.length_singleton,
    Vector.length_toList]

/-- Settles O49: the count z is the model's `padZeros`. -/
theorem sha1PaddingFillsBlocks : Obligations.Sha1PaddingFillsBlocks := by
  refine fun m => ⟨padZeros m.length, rfl, padZeros_fills_block _, fun _ => padZeros_le, ?_⟩
  rw [sha1Pad_length, padZeros_fills_block]

/-! ### The message schedule -/

theorem rotl_eq_rotateLeft {n : Nat} (hn : n < 32) (x : Word) : rotl n x = x.rotateLeft n := by
  rw [rotl, BitVec.rotateLeft, Nat.mod_eq_of_lt hn, BitVec.rotateLeftAux]

theorem extendSchedule_succ (n : Nat) (ws : List Word) :
    extendSchedule (n + 1) ws = scheduleWord (extendSchedule n ws) :: extendSchedule n ws := by
  induction n generalizing ws with
  | zero => rfl
  | succ n ih => exact ih (scheduleWord ws :: ws)

theorem extendSchedule_length (n : Nat) (ws : List Word) :
    (extendSchedule n ws).length = n + ws.length := by
  induction n with
  | zero => exact (Nat.zero_add _).symm
  | succ n ih =>
    rw [extendSchedule_succ, List.length_cons, ih]
    omega

/-- Extending further puts new words in front, and keeps the words there are behind them. -/
theorem drop_extendSchedule_add (n k : Nat) (ws : List Word) :
    (extendSchedule (n + k) ws).drop k = extendSchedule n ws := by
  induction k with
  | zero => rfl
  | succ k ih => rw [← Nat.add_assoc, extendSchedule_succ, List.drop_succ_cons, ih]

theorem blockWords_length (p : List Byte) : (blockWords p).length = 16 := by
  simp [blockWords]

theorem blockWords_getD (p : List Byte) {t : Nat} (ht : t < 16) :
    (blockWords p).getD t 0 = BitVec.ofNat 32 (fromBe ((p.drop (4 * t)).take 4)) := by
  simp [blockWords, ht]

theorem messageSchedule_length (p : List Byte) : (messageSchedule p).length = 80 := by
  rw [messageSchedule, List.length_reverse, extendSchedule_length, List.length_reverse,
    blockWords_length]

/-- Word k, newest first, of the schedule after n of its 64 extensions is W[n + 15 - k]. -/
theorem extendSchedule_blockWords_getD {p : List Byte} {n k : Nat} (hn : n ≤ 64) (hk : k < n + 16) :
    (extendSchedule n (blockWords p).reverse).getD k 0
      = (messageSchedule p).getD (n + 15 - k) 0 := by
  have hlen := extendSchedule_length 64 (blockWords p).reverse
  rw [List.length_reverse, blockWords_length] at hlen
  have hdrop := drop_extendSchedule_add n (64 - n) (blockWords p).reverse
  rw [Nat.add_sub_of_le hn] at hdrop
  rw [← hdrop, messageSchedule, List.getD_eq_getElem?_getD, List.getD_eq_getElem?_getD,
    List.getElem?_drop, List.getElem?_reverse (by omega), hlen]
  congr 2
  omega

/-- R132 at the words after the first 16. -/
theorem messageSchedule_getD_add_sixteen (p : List Byte) {t : Nat} (ht : t < 64) :
    (messageSchedule p).getD (t + 16) 0 =
      ((messageSchedule p).getD (t + 13) 0 ^^^ (messageSchedule p).getD (t + 8) 0
        ^^^ (messageSchedule p).getD (t + 2) 0 ^^^ (messageSchedule p).getD t 0).rotateLeft 1 := by
  have hnew : scheduleWord (extendSchedule t (blockWords p).reverse) =
      (messageSchedule p).getD (t + 16) 0 := by
    have h := extendSchedule_blockWords_getD (p := p) (n := t + 1) (k := 0) (by omega) (by omega)
    rwa [extendSchedule_succ, List.getD_cons_zero] at h
  rw [← hnew, scheduleWord, rotl_eq_rotateLeft (by decide),
    extendSchedule_blockWords_getD (by omega) (by omega),
    extendSchedule_blockWords_getD (by omega) (by omega),
    extendSchedule_blockWords_getD (by omega) (by omega),
    extendSchedule_blockWords_getD (by omega) (by omega)]
  rfl

theorem messageSchedule_getD_of_lt (p : List Byte) {t : Nat} (ht : t < 16) :
    (messageSchedule p).getD t 0 = (blockWords p).getD t 0 := by
  have hlen := blockWords_length p
  have hback : 15 - (15 - t) = t := by omega
  have h := extendSchedule_blockWords_getD (p := p) (n := 0) (k := 15 - t) (by omega) (by omega)
  rw [Nat.zero_add, hback] at h
  rw [← h, extendSchedule, List.getD_eq_getElem?_getD, List.getElem?_reverse (by omega), hlen, hback,
    List.getD_eq_getElem?_getD]

theorem fromBe_lt (s : List Byte) : fromBe s < 256 ^ s.length := by
  induction s using List.reverseRecOn with
  | nil => exact Nat.one_pos
  | append_singleton s b ih =>
    have hb := b.isLt
    rw [fromBe_append_singleton, List.length_append, List.length_singleton, pow_succ]
    omega

/-- Four bytes fit a word, so W[0] to W[15] lose nothing of them. -/
theorem fromBe_take_four_lt (s : List Byte) : fromBe (s.take 4) < 2 ^ 32 :=
  (fromBe_lt (s.take 4)).trans_le (Nat.pow_le_pow_right (by decide) (List.length_take_le 4 s))

/-- R132 at the first 16 words. -/
theorem messageSchedule_getD_toNat (p : List Byte) {t : Nat} (ht : t < 16) :
    ((messageSchedule p).getD t 0).toNat = fromBe ((p.drop (4 * t)).take 4) := by
  rw [messageSchedule_getD_of_lt p ht, blockWords_getD p ht, BitVec.toNat_ofNat]
  exact Nat.mod_eq_of_lt (fromBe_take_four_lt _)

/-- The schedule with its length. -/
def scheduleVector (p : List Byte) : Vector Word 80 :=
  ⟨(messageSchedule p).toArray, messageSchedule_length p⟩

theorem scheduleVector_getElem (p : List Byte) {i : Nat} (hi : i < 80) :
    (scheduleVector p)[i] = (messageSchedule p).getD i 0 := by
  have hlen := messageSchedule_length p
  simp [scheduleVector, hlen, hi]

/-- Settles O50: the two halves of R132 are facts about the words of `messageSchedule`. -/
theorem sha1ScheduleRecurrence : Obligations.Sha1ScheduleRecurrence := by
  refine fun p _ => ⟨scheduleVector p, rfl, fun t => ?_, fun t => ?_⟩
  · rw [scheduleVector_getElem]
    exact messageSchedule_getD_toNat p t.isLt
  · simp only [scheduleVector_getElem]
    exact messageSchedule_getD_add_sixteen p t.isLt

/-! ### The round functions -/

/-- Settles O51: bit by bit, by the truth tables. -/
theorem sha1RoundFunctionsWithOr : Obligations.Sha1RoundFunctionsWithOr := by
  have hch : ∀ b c d : Bool, ((b && c) ^^ (!b && d)) = (b && c || !b && d) := by decide
  have hmaj : ∀ b c d : Bool,
      ((b && c) ^^ (b && d) ^^ (c && d)) = (b && c || b && d || c && d) := by decide
  refine fun x y z => ⟨?_, ?_⟩ <;> ext i hi
  · simpa [ch, hi] using hch x[i] y[i] z[i]
  · simpa [maj] using hmaj x[i] y[i] z[i]

/-! ### The block key of HMAC -/

theorem blockKey_of_le {key : List Byte} (h : key.length ≤ 64) :
    blockKey key = key ++ List.replicate (64 - key.length) 0 :=
  if_pos h

theorem blockKey_of_gt {key : List Byte} (h : 64 < key.length) :
    blockKey key = (sha1 key).toList ++ List.replicate 44 0 :=
  if_neg (by omega)

/-- The key enters HMAC by its block key only (43_sha1_hmac R137). -/
theorem hmac_eq_of_blockKey_eq {key key' : List Byte} (h : blockKey key = blockKey key')
    (m : List Byte) : hmac key m = hmac key' m := by
  rw [hmac, hmac, h]

theorem blockKey_append_zeros {key : List Byte} {n : Nat} (h : key.length + n ≤ 64) :
    blockKey (key ++ List.replicate n 0) = blockKey key := by
  have hlen : (key ++ List.replicate n (0 : Byte)).length = key.length + n := by simp
  have hsum : n + (64 - (key.length + n)) = 64 - key.length := by omega
  rw [blockKey_of_le (by omega), blockKey_of_le (by omega), hlen, List.append_assoc,
    List.replicate_append_replicate, hsum]

theorem blockKey_sha1 {key : List Byte} (h : 64 < key.length) :
    blockKey key = blockKey (sha1 key).toList := by
  have hlen : (sha1 key).toList.length = 20 := Vector.length_toList
  rw [blockKey_of_gt h, blockKey_of_le (by omega), hlen]

/-- Settles O52: both keys of each clause have the same block key. -/
theorem hmacBlockKey : Obligations.HmacBlockKey :=
  ⟨fun _ m _ h => hmac_eq_of_blockKey_eq (blockKey_append_zeros h) m,
    fun _ m h => hmac_eq_of_blockKey_eq (blockKey_sha1 h) m⟩

/-! ### Dynamic truncation -/

theorem truncOffset_val (hs : Vector Byte 20) : (truncOffset hs).val = hs[19].toNat % 16 := by
  simp [truncOffset]

theorem fromBe_four (a b c d : Byte) : fromBe [a, b, c, d] =
    a.toNat * 2 ^ 24 + b.toNat * 2 ^ 16 + c.toNat * 2 ^ 8 + d.toNat := by
  simp only [fromBe, List.foldl_cons, List.foldl_nil]
  omega

theorem byte_and_0x7F_toNat (b : Byte) : (b &&& 0x7F).toNat = b.toNat % 2 ^ 7 :=
  Nat.and_two_pow_sub_one_eq_mod b.toNat 7

theorem truncate_eq (hs : Vector Byte 20) :
    truncate hs = fromBe [hs[(truncOffset hs).val], hs[(truncOffset hs).val + 1],
      hs[(truncOffset hs).val + 2], hs[(truncOffset hs).val + 3]] % 2 ^ 31 := by
  have h1 := hs[(truncOffset hs).val + 1].isLt
  have h2 := hs[(truncOffset hs).val + 2].isLt
  have h3 := hs[(truncOffset hs).val + 3].isLt
  rw [truncate, byte_and_0x7F_toNat, fromBe_four]
  omega

/-- Settles O53: clearing the top bit of the first byte is reducing the four bytes modulo 2^31. -/
theorem truncationReadsThirtyOneBits : Obligations.TruncationReadsThirtyOneBits :=
  fun hs => ⟨truncOffset hs, truncOffset_val hs, truncate_eq hs,
    truncate_eq hs ▸ Nat.mod_lt _ (by decide)⟩

end Sys2Proof.Machine
end

section
/-! PROOFS of the family 44_totp: the window, the digits and the key of the code generator, and the
commands NOP, STEP, GEN and VER (44_totp R160 to R173). -/

namespace Sys2Proof.Machine

/-! ### The window -/

/-- The counter that `windowCounters` puts at distance `d` from the low end of the window, if it is one. -/
def windowMember (c : Counter) (w d : Nat) : Option Counter :=
  if w ≤ c.toNat + d ∧ c.toNat + d - w < 2 ^ 64 then some (BitVec.ofNat 64 (c.toNat + d - w)) else none

theorem windowCounters_eq_filterMap (c : Counter) (w : Nat) :
    windowCounters c w = (List.range (2 * w + 1)).filterMap (windowMember c w) := rfl

theorem windowMember_eq_some_iff {c x : Counter} {w d : Nat} :
    windowMember c w d = some x ↔ x.toNat + w = c.toNat + d := by
  have hx := x.isLt
  unfold windowMember
  split
  · next h =>
    rw [Option.some.injEq, ← BitVec.toNat_inj, BitVec.toNat_ofNat, Nat.mod_eq_of_lt h.2]
    omega
  · next h =>
    simp only [reduceCtorEq, false_iff]
    omega

/-- The window is clipped: it holds the counters within `w` of `c` and no other (44_totp R168). -/
theorem mem_windowCounters {c x : Counter} {w : Nat} :
    x ∈ windowCounters c w ↔ c.toNat ≤ x.toNat + w ∧ x.toNat ≤ c.toNat + w := by
  simp only [windowCounters_eq_filterMap, List.mem_filterMap, List.mem_range, windowMember_eq_some_iff]
  constructor
  · rintro ⟨d, hd, hx⟩
    omega
  · rintro ⟨hlow, hhigh⟩
    exact ⟨x.toNat + w - c.toNat, by omega, by omega⟩

theorem self_mem_windowCounters (c : Counter) (w : Nat) : c ∈ windowCounters c w :=
  mem_windowCounters.2 ⟨Nat.le_add_right _ _, Nat.le_add_right _ _⟩

theorem windowCounters_nodup (c : Counter) (w : Nat) : (windowCounters c w).Nodup := by
  refine List.Nodup.filterMap (fun d e x hd he => ?_) List.nodup_range
  have hd := windowMember_eq_some_iff.1 hd
  have he := windowMember_eq_some_iff.1 he
  omega

theorem windowCounters_length {c : Counter} {w : Nat} (hlow : w ≤ c.toNat) (hhigh : c.toNat + w < 2 ^ 64) :
    (windowCounters c w).length = 2 * w + 1 := by
  have hall : ∀ d ∈ List.range (2 * w + 1), (windowMember c w d).isSome := fun d hd => by
    have hd := List.mem_range.1 hd
    exact Option.isSome_iff_exists.2 ⟨BitVec.ofNat 64 (c.toNat + d - w),
      windowMember_eq_some_iff.2 (by rw [BitVec.toNat_ofNat]; omega)⟩
  rw [windowCounters_eq_filterMap, List.length_filterMap_eq_countP, List.countP_eq_length.2 hall,
    List.length_range]

/-- Settles O56: the member at distance d from the low end is the counter x with x + w = c + d. -/
theorem windowIsClippedNotWrapped : Obligations.WindowIsClippedNotWrapped :=
  fun c w => ⟨fun _ => mem_windowCounters, windowCounters_nodup c w.toNat, windowCounters_length⟩


/-! ### The six digits -/

theorem digits_eq_iff {v : Nat} {q : Vector Byte 6} :
    digits v = q ↔ ∀ j : Fin 6, q[j].toNat = 0x30 + v / 10 ^ (5 - j.val) % 10 := by
  constructor
  · rintro rfl j
    exact digits_toNat v j
  · intro h
    exact Vector.ext fun j hj =>
      BitVec.eq_of_toNat_eq ((digits_toNat v ⟨j, hj⟩).trans (h ⟨j, hj⟩).symm)

/-- Settles O55: the decimal digits of a number below 10^6 are its six quotients modulo 10. -/
theorem digitsDetermineTheValue : Obligations.DigitsDetermineTheValue := by
  intro v q hv hq
  have hdigits : digits v = q ↔ q[0].toNat = 0x30 + v / 100000 % 10
      ∧ q[1].toNat = 0x30 + v / 10000 % 10 ∧ q[2].toNat = 0x30 + v / 1000 % 10
      ∧ q[3].toNat = 0x30 + v / 100 % 10 ∧ q[4].toNat = 0x30 + v / 10 % 10
      ∧ q[5].toNat = 0x30 + v % 10 := by
    simp [digits_eq_iff, Fin.forall_fin_succ]
  have h0 : 0x30 ≤ q[0].toNat ∧ q[0].toNat ≤ 0x39 := hq 0
  have h1 : 0x30 ≤ q[1].toNat ∧ q[1].toNat ≤ 0x39 := hq 1
  have h2 : 0x30 ≤ q[2].toNat ∧ q[2].toNat ≤ 0x39 := hq 2
  have h3 : 0x30 ≤ q[3].toNat ∧ q[3].toNat ≤ 0x39 := hq 3
  have h4 : 0x30 ≤ q[4].toNat ∧ q[4].toNat ≤ 0x39 := hq 4
  have h5 : 0x30 ≤ q[5].toNat ∧ q[5].toNat ≤ 0x39 := hq 5
  rw [hdigits]
  omega

/-! ### The key -/

/-- Settles O48: the mode chooses between the bytes and their text, whose length is that of 32 bytes. -/
theorem hmacKeyOfEachMode : Obligations.HmacKeyOfEachMode := by
  intro k p
  obtain ⟨hnoPad, hpad⟩ := b32OutputLengths k.toList
  rw [Vector.length_toList] at hnoPad hpad
  exact ⟨rfl, Vector.length_toList, rfl, hpad, hnoPad, rfl⟩

/-! ### NOP and STEP -/

/-- Settles O21: NOP finishes without a write. -/
theorem nopOnlyCompletes : Obligations.NopOnlyCompletes := fun s =>
  (exec_eq_finish .nop s).trans (congrArg Host.Outcome.next (finish_no_writes .none s))

/-- Settles O22: STEP writes `stepOf` and `remaining`, which lose nothing in their 64 and 5 bits. -/
theorem stepComputesStepAndRemaining : Obligations.StepComputesStepAndRemaining := by
  intro s k hp
  have hr := remaining_toNat k.timeIn
  exact ⟨_, _, stepOf_toNat k.timeIn, hr, by omega, by omega, exec_of_execute hp rfl⟩

/-! ### GEN -/

/-- CODE_A holds the digits of what CODE holds. -/
theorem digits_secretCode_toNat (cfg : Config) (key : Vector Byte 32) (c : Counter) (j : Fin 6) :
    (digits (secretCode cfg key c))[j].toNat =
      0x30 + (BitVec.ofNat 20 (secretCode cfg key c)).toNat / 10 ^ (5 - j.val) % 10 := by
  rw [digits_toNat, secretCode_toNat]

/-- Stated for any values, so that checking it runs no HMAC. -/
theorem applyWrites_code (v : BitVec 20) (d : Vector Byte 6) (c : Counter) (s : State) :
    applyWrites [.code v, .codeA d, .stepOut c] s = { s with code := v, codeA := d, stepOut := c } :=
  rfl

/-- GEN of either source of the counter: `hi` says which one the command `i` has. -/
theorem exec_gen_of_provisioned {s : State} {i : Instr} {ts : Bool} {k : Snapshot}
    (hp : s.pending = some ⟨some i, k⟩) (hi : execute i s.cfg k = genResult ts s.cfg k)
    {c : Counter} (hc : counterOf ts k = c) (hv : k.seedValid = true) :
    exec i s = .next (applyWrites (remainWrites ts k)
      { s.completed .none with
        code := BitVec.ofNat 20 (secretCode s.cfg k.secret c)
        codeA := digits (secretCode s.cfg k.secret c)
        stepOut := c }) := by
  rw [exec_of_execute hp (hi.trans (genResult_of_provisioned ts s.cfg hv)), applyWrites_append, hc,
    applyWrites_code]

/-- Settles O27: GEN by the provisioning of its snapshot, for each source of the counter. -/
theorem genWritesTheCodeOfItsCounter : Obligations.GenWritesTheCodeOfItsCounter := by
  constructor
  · refine fun s k hp =>
      ⟨fun hv => exec_of_execute hp (genResult_of_unprovisioned false s.cfg hv), fun hv => ?_⟩
    exact ⟨_, _, secretCode_toNat s.cfg k.secret k.stepIn,
      digits_secretCode_toNat s.cfg k.secret k.stepIn,
      exec_gen_of_provisioned (ts := false) hp rfl (counterOf_stepInput k) hv⟩
  · refine fun s k hp =>
      ⟨fun hv => exec_of_execute hp (genResult_of_unprovisioned true s.cfg hv), fun hv => ?_⟩
    refine ⟨_, _, _, _, stepOf_toNat k.timeIn, remaining_toNat k.timeIn,
      secretCode_toNat s.cfg k.secret (stepOf k.timeIn),
      digits_secretCode_toNat s.cfg k.secret (stepOf k.timeIn), ?_⟩
    rw [exec_gen_of_provisioned (ts := true) hp rfl (counterOf_time k) hv,
      remainWrites_time, applyWrites_cons, applyWrites_nil, FieldWrite.apply]

/-! ### VER -/

/-- The candidate matches when it is the six digits of the code of a counter of the window (44_totp R168,
R169). -/
theorem matchesWindow_candCode_iff {cfg : Config} {key : Vector Byte 32} {q : Vector Byte 8}
    {c : Counter} {w : Nat} :
    matchesWindow cfg key (candCode q) c w = true ↔ ∃ x : Counter,
      c.toNat ≤ x.toNat + w ∧ x.toNat ≤ c.toNat + w
        ∧ ∀ j : Fin 6, q[j.val].toNat = 0x30 + hotp (hmacKey cfg key) x / 10 ^ (5 - j.val) % 10 := by
  have hcand : ∀ j : Fin 6, (candCode q)[j] = q[j.val] := fun j => by simp [candCode]
  simp only [matchesWindow, List.any_eq_true, beq_iff_eq, mem_windowCounters, digits_eq_iff, hcand,
    secretCode, and_assoc]

/-- MATCH, cleared at completion, becomes the outcome of the comparison (10_state R41, 44_totp R172). -/
theorem applyWrites_matchFlag_of_clear {s : State} (h : s.matchFlag = false) (m : Bool) :
    applyWrites (if m then [.matchFlag] else []) s = { s with matchFlag := m } := by
  cases m with
  | false => exact congrArg (fun b => { s with matchFlag := b }) h
  | true => rfl

/-- The code of the centre matches, whatever the window. -/
theorem matchesWindow_self (cfg : Config) (key : Vector Byte 32) (c : Counter) (w : Nat) :
    matchesWindow cfg key (digits (secretCode cfg key c)) c w = true :=
  List.any_eq_true.2 ⟨c, self_mem_windowCounters c w, beq_self_eq_true _⟩

theorem validCand_of_digits {l : BitVec 8} {q : Vector Byte 8} {v : Nat} (hl : l = 6)
    (hq : ∀ j : Fin 6, q[j.val] = (digits v)[j]) : ValidCand l q :=
  ⟨congrArg BitVec.toNat hl, fun j => by rw [hq, digits_toNat]; omega⟩

theorem candCode_eq_digits {q : Vector Byte 8} {v : Nat} (hq : ∀ j : Fin 6, q[j.val] = (digits v)[j]) :
    candCode q = digits v :=
  Vector.ext fun j hj => (Vector.getElem_ofFn hj).trans (hq ⟨j, hj⟩)

section
/-! VER of either source of the counter: `hi` says which one the command `i` has. -/

variable {s : State} {i : Instr} {ts : Bool} {k : Snapshot} (hp : s.pending = some ⟨some i, k⟩)
  (hi : execute i s.cfg k = verResult ts s.cfg k)
include hp hi

theorem exec_ver_of_malformed
    (h : k.candLen ≠ 6 ∨ ∃ j : Fin 6, k.cand[j.val].toNat < 0x30 ∨ 0x39 < k.cand[j.val].toNat) :
    exec i s = .next (s.completed .input) := by
  refine exec_of_execute hp (hi.trans (verResult_of_malformed ts s.cfg ?_))
  rintro ⟨hlen, hdigit⟩
  obtain hne | ⟨j, hj⟩ := h
  · exact hne (BitVec.eq_of_toNat_eq hlen)
  · have := hdigit j
    omega

theorem exec_ver_of_unprovisioned (hc : ValidCand k.candLen k.cand) (hv : k.seedValid = false) :
    exec i s = .next (s.completed .notProvisioned) :=
  exec_of_execute hp (hi.trans (verResult_of_unprovisioned ts s.cfg hc hv))

theorem exec_ver_of_provisioned (hc : ValidCand k.candLen k.cand) (hv : k.seedValid = true) :
    exec i s = .next
      { applyWrites ([.stepOut (counterOf ts k)] ++ remainWrites ts k) (s.completed .none) with
        matchFlag :=
          matchesWindow s.cfg k.secret (candCode k.cand) (counterOf ts k) k.window.toNat } := by
  rw [exec_of_execute hp (hi.trans (verResult_of_provisioned ts s.cfg hc hv)), applyWrites_append,
    applyWrites_matchFlag_of_clear (by cases ts <;> rfl)]

/-- A VER whose candidate is the code of its own counter matches. -/
theorem exec_ver_of_own_code (hl : k.candLen = 6) (hv : k.seedValid = true)
    (hq : ∀ j : Fin 6, k.cand[j.val] = (digits (secretCode s.cfg k.secret (counterOf ts k)))[j]) :
    ∃ t, exec i s = .next t ∧ t.matchFlag = true := by
  refine ⟨_, exec_ver_of_provisioned hp hi (validCand_of_digits hl hq) hv, ?_⟩
  rw [candCode_eq_digits hq]
  exact matchesWindow_self s.cfg k.secret _ _

end

/-- Settles O28: VER by its candidate and the provisioning, for each source of the counter. -/
theorem verMatchesTheWindowOfItsCounter : Obligations.VerMatchesTheWindowOfItsCounter := by
  constructor
  · refine fun s k hp => ⟨exec_ver_of_malformed (ts := false) hp rfl, fun hlen hdigit => ?_⟩
    have hc : ValidCand k.candLen k.cand := ⟨congrArg BitVec.toNat hlen, hdigit⟩
    exact ⟨exec_ver_of_unprovisioned (ts := false) hp rfl hc, fun hv =>
      ⟨_, matchesWindow_candCode_iff, exec_ver_of_provisioned (ts := false) hp rfl hc hv⟩⟩
  · refine fun s k hp => ⟨exec_ver_of_malformed (ts := true) hp rfl, fun hlen hdigit => ?_⟩
    have hc : ValidCand k.candLen k.cand := ⟨congrArg BitVec.toNat hlen, hdigit⟩
    exact ⟨exec_ver_of_unprovisioned (ts := true) hp rfl hc, fun hv =>
      ⟨_, _, _, stepOf_toNat k.timeIn, remaining_toNat k.timeIn, matchesWindow_candCode_iff,
        exec_ver_of_provisioned (ts := true) hp rfl hc hv⟩⟩

/-- Settles O30: the centre of the window is the counter of the code. -/
theorem generatedCodeVerifies : Obligations.GeneratedCodeVerifies := by
  intro s t u k l hp hk ht hcfg hl hsecret hlen hcand
  obtain rfl := Host.Outcome.next.inj
    ((exec_gen_of_provisioned (ts := true) hp rfl (counterOf_time k) hk).symm.trans ht)
  have hq : ∀ j : Fin 6, l.cand[j.val] = (digits (secretCode u.cfg l.secret (stepOf k.timeIn)))[j] := by
    rw [hcfg, hsecret]
    exact hcand
  constructor
  · intro htime
    exact exec_ver_of_own_code (ts := true) rfl rfl hlen hl (by rwa [counterOf_time, htime])
  · intro hstep
    exact exec_ver_of_own_code (ts := false) rfl rfl hlen hl (by rwa [counterOf_stepInput, hstep])

end Sys2Proof.Machine
end

section
/-! PROOFS of the family 60_exceptions: no step stops, and the errors of the commands (60_exceptions R200
to R204). -/

namespace Sys2Proof.Machine

/-- Settles O7: the ENGINE's turn and the HOST's turn both end in a next state. -/
theorem everyStepAnswersNext : Obligations.EveryStepAnswersNext := exists_step

/-! ### The errors of a command -/

/-- The errors that a command can end with (60_exceptions R202). -/
def possibleErrors : Instr → List ErrCode
  | .nop | .step       => []
  | .loadHex           => [.validation]
  | .loadRaw | .b32Enc => [.length]
  | .genS | .genT      => [.notProvisioned]
  | .verS | .verT      => [.notProvisioned, .input]

/-- What a command writes when it ends with an error (60_exceptions R204; 41_base32 R103 for B32ENC,
log 12). -/
def errorWrites : Instr → List FieldWrite
  | .genS | .genT => [.code 0, .codeA (Vector.replicate 6 0)]
  | .b32Enc       => [.b32Out (Vector.replicate 104 0), .b32OutLen 0]
  | _             => []

/-- The result has no error, or it is one of the command's errors with the command's error writes. -/
def Result.AnswersFor (r : Result) (i : Instr) : Prop :=
  r.err = .none ∨ ∃ e ∈ possibleErrors i, r = { err := e, writes := errorWrites i }

theorem genResult_answers {ts : Bool} {i : Instr} (hi : i = if ts then .genT else .genS) (cfg : Config)
    (k : Snapshot) : (genResult ts cfg k).AnswersFor i := by
  cases hv : k.seedValid with
  | false =>
    rw [genResult_of_unprovisioned ts cfg hv, hi]
    exact .inr ⟨.notProvisioned, by cases ts <;> decide, by cases ts <;> rfl⟩
  | true =>
    rw [genResult_of_provisioned ts cfg hv]
    exact .inl rfl

theorem verResult_answers {ts : Bool} {i : Instr} (hi : i = if ts then .verT else .verS) (cfg : Config)
    (k : Snapshot) : (verResult ts cfg k).AnswersFor i := by
  by_cases hc : ValidCand k.candLen k.cand
  · cases hv : k.seedValid with
    | false =>
      rw [verResult_of_unprovisioned ts cfg hc hv, hi]
      exact .inr ⟨.notProvisioned, by cases ts <;> decide, by cases ts <;> rfl⟩
    | true =>
      rw [verResult_of_provisioned ts cfg hc hv]
      exact .inl rfl
  · rw [verResult_of_malformed ts cfg hc, hi]
    exact .inr ⟨.input, by cases ts <;> decide, by cases ts <;> rfl⟩

/-- A command ends without error, or with one of its errors and the writes that go with it (60_exceptions
R202, R204). -/
theorem execute_answers (i : Instr) (cfg : Config) (k : Snapshot) : (execute i cfg k).AnswersFor i := by
  cases i with
  | nop | step => exact .inl rfl
  | loadHex =>
    by_cases hv : ValidHex k.stage k.slen.toNat
    · exact .inl (congrArg Result.err (loadHexResult_of_valid hv))
    · exact .inr ⟨.validation, by decide, loadHexResult_of_invalid hv⟩
  | loadRaw =>
    by_cases hl : k.slen.toNat = 32
    · exact .inl (congrArg Result.err (loadRawResult_of_length hl))
    · exact .inr ⟨.length, by decide, loadRawResult_of_bad_length hl⟩
  | genS => exact genResult_answers (ts := false) rfl cfg k
  | genT => exact genResult_answers (ts := true) rfl cfg k
  | verS => exact verResult_answers (ts := false) rfl cfg k
  | verT => exact verResult_answers (ts := true) rfl cfg k
  | b32Enc =>
    by_cases hl : 64 < k.slen.toNat
    · exact .inr ⟨.length, by decide, b32EncResult_of_long cfg hl⟩
    · exact .inl (congrArg Result.err (b32EncResult_of_short cfg (not_lt.1 hl)))

/-- What the completion of a command can do, by whether it ends with an error. -/
theorem exec_error_cases {i : Instr} {s t : State} (h : exec i s = .next t) :
    t.err = .none ∨ ∃ e ∈ possibleErrors i, t = applyWrites (errorWrites i) (s.completed e) := by
  obtain rfl := Host.Outcome.next.inj ((exec_eq_finish i s).symm.trans h)
  obtain hnone | ⟨e, he, hr⟩ := execute_answers i s.cfg s.operands
  · exact .inl hnone
  · exact .inr ⟨e, he, by rw [hr, finish_eq_applyWrites_completed]⟩

/-- Settles O33: the error of a completion is none or one of the command's list. -/
theorem possibleErrorsOfEachCommand : Obligations.PossibleErrorsOfEachCommand := by
  intro i s t h
  have herr : t.err = .none ∨ t.err ∈ possibleErrors i := by
    obtain hnone | ⟨e, he, rfl⟩ := exec_error_cases h
    · exact .inl hnone
    · exact .inr (by rwa [applyWrites_err])
  cases i <;> simpa [possibleErrors] using herr

/-- Settles O34: with an error, the state is the completed one with the command's error writes. -/
theorem errorsArePrecise : Obligations.ErrorsArePrecise := by
  intro i s t h hne
  obtain hnone | ⟨e, -, rfl⟩ := exec_error_cases h
  · exact absurd hnone hne
  · cases i <;> exact ⟨rfl, rfl, rfl⟩

end Sys2Proof.Machine
end

section
/-! PROOFS of the family 60_exceptions: OVR is sticky, and no register shows the hidden state
(60_exceptions R205, R207). -/

namespace Sys2Proof.Machine

/-! ### The overrun flag -/

/-- The ENGINE's turn does not touch OVR. -/
theorem complete_ovr {s t : State} (h : complete s = .next t) : t.ovr = s.ovr := by
  obtain ⟨-, hc⟩ | ⟨i, k, -, hc⟩ | ⟨k, -, hc⟩ := complete_cases s
  all_goals
    cases hc.symm.trans h
    simp

/-- An issue in an idle block leaves OVR, and in a busy one sets it (10_state R42). -/
theorem issue_keeps_ovr {s : State} (h : s.ovr = true) (v : Word) : (issue v s).ovr = true := by
  cases hp : s.pending with
  | none => rwa [issue_of_idle v hp]
  | some p => rw [issue_of_pending v hp]

/-- A write to STATUS with bit 4 clear has no effect (10_state R25). -/
theorem writeStatus_of_bit_clear {v : Word} (h : v.getLsbD 4 = false) (s : State) : writeStatus v s = s :=
  if_neg (by rw [h]; decide)

/-- Of the registers, only STATUS clears OVR, by bit 4 of the word (10_state R25). -/
theorem writeReg_keeps_ovr {r : Reg} {v : Word} {s : State} (h : s.ovr = true)
    (hv : r = .status → v.getLsbD 4 = false) : (writeReg r v s).ovr = true := by
  cases r with
  | cmd => exact issue_keeps_ovr h v
  | status => simpa only [writeReg, writeStatus_of_bit_clear (hv rfl)] using h
  | _ => simpa only [writeReg] using h

theorem busWrite_keeps_ovr {off : Offset} {v : Word} {s : State} (h : s.ovr = true)
    (hv : off = 0x00C → v.getLsbD 4 = false) : (busWrite off v s).ovr = true := by
  cases hr : regAt off with
  | none => rwa [busWrite_of_unreached hr]
  | some r =>
    obtain ⟨rfl, -⟩ := regAt_cases hr
    rw [busWrite_offset]
    exact writeReg_keeps_ovr h fun hstatus => hv (congrArg Reg.offset hstatus)

theorem hostStep_keeps_ovr {a : HostAction} {s : State} (h : s.ovr = true) (ha : a ≠ .reset)
    (hv : ∀ v, a = .write 0x00C v → v.getLsbD 4 = false) : (hostStep a s).ovr = true := by
  cases a with
  | read off => exact h
  | write off v => exact busWrite_keeps_ovr h fun hoff => hv v (congrArg (HostAction.write · v) hoff)
  | reset => exact absurd rfl ha

/-- Settles O41: the ENGINE leaves OVR, and the HOST clears it only by RESET or by bit 4 of STATUS. -/
theorem overrunIsSticky : Obligations.OverrunIsSticky := by
  intro s t hstep hovr hreset hstatus
  obtain ⟨rest, -, hc⟩ | ⟨a, rest, hs, rfl⟩ := step_cases hstep
  · exact (complete_ovr hc).trans hovr
  · have ha : a ≠ .reset := by
      rintro rfl
      simp [State.resetNext, hs] at hreset
    refine hostStep_keeps_ovr (s := s.withSchedule rest) hovr ha fun v hv => hstatus v rest ?_
    rw [hs, hv]

/-! ### The hidden state -/

/-- Settles O42: of SECRET and the pending command, a read sees only whether a command is pending. -/
theorem noRegisterReadsTheSecret : Obligations.NoRegisterReadsTheSecret := by
  constructor
  · exact fun off s key => busRead_withHidden off s key rfl
  · intro off s key p q hp
    exact busRead_withHidden off s key (p := some q) (by rw [hp]; rfl)

end Sys2Proof.Machine
end

section
/-! PROOFS of the family 70_reset_and_hazards: what RESET leaves, and what keeps the results
(70_reset R220, R223, R224). -/

namespace Sys2Proof.Machine

/-! ### RESET -/

theorem resetNext_iff {s : State} : s.resetNext = true ↔ ∃ rest, s.schedule = .host .reset :: rest := by
  unfold State.resetNext
  split
  next rest hs => simp [hs]
  next hne => simpa using fun rest => hne rest

theorem action_ne_reset {s : State} {a : HostAction} {rest : List Turn} (hreset : s.resetNext = false)
    (hs : s.schedule = .host a :: rest) : a ≠ .reset := by
  rintro rfl
  exact absurd (resetNext_iff.2 ⟨rest, hs⟩) (by simp [hreset])

/-- Every word of a buffer of zero bytes is 0, the bytes past its end included (20_memory R54). -/
@[simp] theorem bufWord_replicate_zero (n k : Nat) : bufWord (Vector.replicate n (0 : Byte)) k = 0 := by
  have hlane (i : Nat) : lane (Vector.replicate n (0 : Byte)) i = 0 := by
    obtain hi | hi := Nat.lt_or_ge i n
    · rw [lane_of_lt _ hi, Vector.getElem_replicate]
    · exact lane_of_ge _ hi
  simp only [bufWord, hlane]
  rfl

/-- The registers that do not read 0 after reset are ID, CFG and WINDOW (70_reset R220). -/
theorem readReg_hostReset_of_other {r : Reg} (s : State) (hid : r ≠ .id) (hcfg : r ≠ .cfg)
    (hwindow : r ≠ .window) : readReg r (hostReset s) = 0 := by
  cases r with
  | id => exact absurd rfl hid
  | cfg => exact absurd rfl hcfg
  | window => exact absurd rfl hwindow
  | status => simp [readReg, statusWord, State.busy, ErrCode.bits]
  | timeHi | stepHi | stepOutHi => exact (by decide : highWord 0 = 0)
  | candLo | candHi | codeALo | codeAHi | stage | b32Out => exact bufWord_replicate_zero _ _
  | _ => rfl

theorem busRead_hostReset_of_other {off : Offset} (s : State) (hid : off ≠ 0x000) (hcfg : off ≠ 0x004)
    (hwindow : off ≠ 0x010) : busRead off (hostReset s) = 0 := by
  cases hr : regAt off with
  | none => exact busRead_of_unreached hr _
  | some r =>
    obtain ⟨rfl, -⟩ := regAt_cases hr
    rw [busRead_offset]
    exact readReg_hostReset_of_other s (mt (congrArg Reg.offset) hid) (mt (congrArg Reg.offset) hcfg)
      (mt (congrArg Reg.offset) hwindow)

/-- Settles O38: RESET leads to `hostReset`, and no other step clears SEED_VALID. -/
theorem resetSetsEveryField : Obligations.ResetSetsEveryField := by
  constructor
  · intro s hreset
    obtain ⟨rest, hs⟩ := resetNext_iff.1 hreset
    exact ⟨_, step_of_host hs, rfl, rfl, rfl, rfl, rfl, rfl, rfl,
      fun off hid hcfg hwindow => busRead_hostReset_of_other _ hid hcfg hwindow, complete_of_idle rfl⟩
  · intro s t hstep hloaded hcleared
    by_contra hreset
    obtain ⟨-, hkeep⟩ := secretSlotChangesOnlyByLoadOrReset s t hstep (Bool.eq_false_of_not_eq_true hreset)
    exact absurd ((hkeep hloaded).symm.trans hcleared) (by decide)

/-- Settles O35: every field has its reset value. -/
theorem invariantHoldsAtReset : Obligations.InvariantHoldsAtReset := inv_resetOf

/-! ### The results -/

theorem SameResults.refl (s : State) : SameResults s s := ⟨rfl, rfl, rfl, rfl, rfl, rfl, rfl, rfl⟩

/-- A write of the HOST reaches no result, an issue included (70_reset R223). -/
theorem busWrite_sameResults (off : Offset) (v : Word) (s : State) : SameResults s (busWrite off v s) :=
  ⟨busWrite_code off v s, busWrite_codeA off v s, busWrite_remain off v s, busWrite_stepOut off v s,
    busWrite_b32Out off v s, busWrite_b32OutLen off v s, busWrite_err off v s, busWrite_matchFlag off v s⟩

/-- Of the HOST's actions, only RESET touches the results. -/
theorem hostStep_sameResults {a : HostAction} (ha : a ≠ .reset) (s : State) :
    SameResults s (hostStep a s) := by
  cases a with
  | read off => exact .refl s
  | write off v => exact busWrite_sameResults off v s
  | reset => exact absurd rfl ha

/-- Settles O40: the ENGINE's turn with nothing pending passes, and the HOST's turn without RESET keeps
the results. -/
theorem resultsChangeOnlyByCompletion : Obligations.ResultsChangeOnlyByCompletion := by
  intro s t hstep hreset hkeep
  obtain ⟨rest, hnext, hc⟩ | ⟨a, rest, hs, rfl⟩ := step_cases hstep
  · have hidle : (s.withSchedule rest).pending = none :=
      hkeep.resolve_left fun hhost => absurd (hnext.symm.trans hhost) (by decide)
    cases (complete_of_idle hidle).symm.trans hc
    exact .refl s
  · exact hostStep_sameResults (action_ne_reset hreset hs) (s.withSchedule rest)

end Sys2Proof.Machine
end
